-- ==== Sys2Proof/Word.lean ====
section
/-! DEFINITION. The words of the block and the numbered cells it is made of (00_scope.md R7, R11). -/

namespace Sys2Proof

/-- `u32`: a logical register value, a mask, an address of sample memory. -/
abbrev Word := BitVec 32

/-- `u8`: what one access moves over the bus (20_memory.md R71). -/
abbrev Byte := BitVec 8

/-- `u16`: an output volume or a filter coefficient. -/
abbrev Half := BitVec 16

/-- `ALL` of 00_scope.md R11, the mask that concerns every bit. -/
abbrev allBits : Word := 0xFFFFFFFF

/-- A channel index, 0..31 (NCHAN of 00_scope.md R7). -/
abbrev ChIx := Fin 32

/-- Thirty-two like cells, one per channel (10_state.md R33, R35). -/
structure Bank (α : Type) where
  /-- The cells, channel 0 first. -/
  cells : List α
  /-- There are exactly 32. -/
  size : cells.length = 32
  deriving DecidableEq, Repr

/-- Every channel's cell holds the same value. -/
def Bank.fill {α : Type} (a : α) : Bank α := ⟨List.replicate 32 a, List.length_replicate⟩

/-- Every channel's cell holds what a function gives for its index. -/
def Bank.ofFn {α : Type} (f : ChIx → α) : Bank α :=
  ⟨(List.finRange 32).map f, by rw [List.length_map, List.length_finRange]⟩

/-- The cell of one channel. -/
def Bank.get {α : Type} (b : Bank α) (i : ChIx) : α :=
  b.cells[i.val]'(by rw [b.size]; exact i.isLt)

/-- The bank with one channel's cell replaced. -/
def Bank.set {α : Type} (b : Bank α) (i : ChIx) (a : α) : Bank α :=
  ⟨b.cells.set i.val a, by rw [List.length_set, b.size]⟩

/-- The bank with a function applied to every channel's cell. -/
def Bank.map {α β : Type} (f : α → β) (b : Bank α) : Bank β :=
  ⟨b.cells.map f, by rw [List.length_map, b.size]⟩

end Sys2Proof
end

