-- ==== Sys2Proof/Machine/Bits.lean ====
section
/-! DEFINITION. Bit fields, byte order, clamping (00_scope.md R11, 20_memory.md R72, R73, 30_encoding.md R109). -/

namespace Sys2Proof

/-- `clamp(v, lo, hi)` of 00_scope.md R11. -/
def clampInt (v lo hi : Int) : Int := if v < lo then lo else if hi < v then hi else v

/-- `clamp(v, 0, 0xFFFF)` as a `u16`. -/
def clampHalf (v : Int) : Half := BitVec.ofInt 16 (clampInt v 0 0xFFFF)

/-- `trunc_8(v)` of 00_scope.md R11: the two's-complement byte of an integer. -/
def truncByte (v : Int) : Byte := BitVec.ofInt 8 v

/-- `shift(s) = 24 - 8*s` (20_memory.md R73). -/
def shiftOf (s : BitVec 2) : Nat := 24 - 8 * s.toNat

/-- `ByteOf(v, s)`: the byte of a 32-bit value that step `s` moves, most significant first
(20_memory.md R73). -/
def byteOf (v : Word) (s : BitVec 2) : Byte := (v >>> shiftOf s).setWidth 8

/-- `BusAddr(addr, s) = (addr << 2) | s` (20_memory.md R72). -/
def busAddr (addr : BitVec 4) (s : BitVec 2) : BitVec 6 :=
  (addr.setWidth 6 <<< 2) ||| s.setWidth 6

/-- A 32-bit value as four bytes, most significant first (20_memory.md R73). -/
def wordBytes (v : Word) : List Byte := [byteOf v 0#2, byteOf v 1#2, byteOf v 2#2, byteOf v 3#2]

/-- Four bytes, most significant first, as a 32-bit value. -/
def wordOfBytes (a b c d : Byte) : Word := a ++ b ++ c ++ d

/-- A `bool` operand as a 32-bit operand: bit 0. -/
def wordOfBool (b : Bool) : Word := if b then 1 else 0

/-- The `bool` that a 32-bit operand holds: bit 0, the others ignored (30_encoding.md R119 (d)). -/
def boolOfWord (w : Word) : Bool := w.getLsbD 0

/-- The `n` low bytes of a number, least significant first. -/
def bytesUp (n w : Nat) : List Byte := (List.range n).map fun k => BitVec.ofNat 8 (w >>> (8 * k))

/-- The `n` low bytes of a number, most significant first. -/
def bytesDown (n w : Nat) : List Byte := (bytesUp n w).reverse

end Sys2Proof
end

