-- ==== Sys2Proof/Machine/Records.lean ====
section
/-! DEFINITION. The records the spec speaks of: channel state, macro input, external stores, transactions, bus
cycles, commands (10_state.md R36, 30_encoding.md R100 to R104, 42_channel_translator.md R181,
44_command_dispatcher.md R251). -/

namespace Sys2Proof

/-- `pcm.loopMode` (10_state.md R36). -/
inductive LoopMode where
  | oneshot
  | forward
  | backward
  | pingpong
  deriving DecidableEq, Repr, Inhabited

/-- `filter` of a channel (10_state.md R36); also an instrument's filter preset. -/
structure Filter where
  mode : BitVec 2
  k1 : Half
  k2 : Half
  deriving DecidableEq, Repr, Inhabited

/-- `env` of a channel (10_state.md R36); ramps are `i8`, held as their two's-complement byte. -/
structure Env where
  ecount : Half
  lVRamp : Byte
  rVRamp : Byte
  k1Ramp : Byte
  k2Ramp : Byte
  k1Slow : Bool
  k2Slow : Bool
  deriving DecidableEq, Repr, Inhabited

/-- `pcm` of a channel: the playback region (10_state.md R36). -/
structure Pcm where
  index : Option Nat
  start : Word
  endAddr : Word
  loopStart : Word
  loopEnd : Word
  length : Nat
  bank : BitVec 2
  reversed : Bool
  loopMode : LoopMode
  deriving DecidableEq, Repr, Inhabited

/-- `filterChanged` (10_state.md R37, R39). -/
structure FilterFlags where
  mode : Bool
  k1 : Bool
  k2 : Bool
  deriving DecidableEq, Repr, Inhabited

/-- `envChanged` (10_state.md R37, R39). -/
structure EnvFlags where
  ecount : Bool
  lVRamp : Bool
  rVRamp : Bool
  k1Ramp : Bool
  k2Ramp : Bool
  deriving DecidableEq, Repr, Inhabited

/-- One ChannelState (10_state.md R35, R36). -/
structure Chan where
  active : Bool
  ins : Nat
  note : Int
  baseFreq : Int
  pitch : Int
  pitch2 : Int
  freqOffs : Rat
  freq : BitVec 17
  vol : Byte
  outVol : Half
  lVol : Byte
  rVol : Byte
  outLVol : Half
  outRVol : Half
  resLVol : Half
  resRVol : Half
  filter : Filter
  k1Offs : Int
  k2Offs : Int
  env : Env
  pcm : Pcm
  isReverseLoop : Bool
  volChanged : Bool
  freqChanged : Bool
  filterChanged : FilterFlags
  envChanged : EnvFlags
  keyOn : Bool
  keyOff : Bool
  inPorta : Bool
  /-- The channel's macro cursor, opaque to the block. -/
  cursor : Nat
  deriving DecidableEq, Repr, Inhabited

/-- One triple "has new value / value / mode" (42_channel_translator.md R181). -/
structure Slot where
  had : Bool
  val : Int
  mode : Int
  deriving DecidableEq, Repr, Inhabited

/-- The macro input `M` of one channel for one tick (42_channel_translator.md R181). -/
structure MacroIn where
  vol : Slot
  panL : Slot
  panR : Slot
  arp : Slot
  pitch : Slot
  phaseReset : Slot
  duty : Slot
  ex1 : Slot
  ex2 : Slot
  ex3 : Slot
  ex4 : Slot
  deriving DecidableEq, Repr, Inhabited

/-- What `MacroAdvance` gives: the input and the cursor it leaves (42_channel_translator.md R180, R181). -/
structure MacroStep where
  input : MacroIn
  cursor : Nat
  deriving DecidableEq, Repr, Inhabited

/-- One (field, value) pair of `EnvMacroMap` (42_channel_translator.md R191). -/
inductive EnvUpdate where
  | ecount (v : Half)
  | lVRamp (v : Byte)
  | rVRamp (v : Byte)
  | k1Ramp (v : Byte)
  | k2Ramp (v : Byte)
  | k1Slow (b : Bool)
  | k2Slow (b : Bool)
  deriving DecidableEq, Repr, Inhabited

/-- What `InsStore` gives for one instrument (44_command_dispatcher.md R251). That a mapped frequency is a rational
number is DESIGN CHOICE, log 28. -/
structure Instrument where
  useNoteMap : Bool
  initSample : Option Nat
  /-- note, sample index, mapped frequency; a note that is not listed maps to none. -/
  noteMap : List (Int × Nat × Rat)
  filterPreset : Filter
  envPreset : Env
  deriving DecidableEq, Repr, Inhabited

/-- What `SampleStore` gives for one sample (44_command_dispatcher.md R251). That a center rate is a rational number is
DESIGN CHOICE, log 28. -/
structure Sample where
  centerRate : Rat
  length : Nat
  loopStart : Nat
  loopEnd : Nat
  loopMode : LoopMode
  reversed : Bool
  offset : Nat
  deriving DecidableEq, Repr, Inhabited

/-- One event of a device tick (45_device_facade.md R295). -/
inductive DevEvent where
  | risingEdge
  | irq
  deriving DecidableEq, Repr, Inhabited

/-- The block's view of one device tick: its events in order, and the pair of outputs read after it
(45_device_facade.md R295). -/
structure DevTick where
  events : List DevEvent
  left : Int
  right : Int
  deriving DecidableEq, Repr, Inhabited

/-- One command record (30_encoding.md R104). -/
structure Cmd where
  kind : Byte
  channel : Byte
  value : Word
  value2 : Word
  deriving DecidableEq, Repr, Inhabited

/-- The command kinds that 30_encoding.md R106 names; any other kind is NOP_CMD. -/
def knownKinds : List Byte :=
  [0x01, 0x02, 0x03, 0x04, 0x05, 0x06, 0x07, 0x08, 0x10, 0x11, 0x12, 0x18, 0x19, 0x1A, 0x1B, 0x1C]

/-- The flavor of a transaction with what it carries: a write's value, a read's destination accumulator
(30_encoding.md R100). -/
inductive Payload where
  | write (value : Word)
  | read (dest : Nat)
  deriving DecidableEq, Repr, Inhabited

/-- A logical transaction (30_encoding.md R100); `accessWidth` is the constant 4 and is dropped (D3). -/
structure LT where
  payload : Payload
  address : BitVec 4
  mask : Word
  delay : Word
  deriving DecidableEq, Repr, Inhabited

/-- A physical transaction (30_encoding.md R101). -/
structure PT where
  payload : Payload
  step : BitVec 2
  address : BitVec 4
  mask : Word
  delay : Word
  deriving DecidableEq, Repr, Inhabited

/-- One cycle on the 8-bit bus (30_encoding.md R103) and the edge on which it happened (00_scope.md R16). -/
structure BusCycle where
  edge : Nat
  write : Bool
  addr : BitVec 6
  data : Byte
  deriving DecidableEq, Repr, Inhabited

/-- A call of a device primitive with an effect on the device (00_scope.md R12). -/
inductive DevCall where
  | reset
  | setMute (i : ChIx) (b : Bool)
  | tick
  | bus (c : BusCycle)
  deriving DecidableEq, Repr, Inhabited

/-- One stereo pair and the buffer index it was written to (45_device_facade.md R295). -/
structure StereoSample where
  index : Nat
  left : Half
  right : Half
  deriving DecidableEq, Repr, Inhabited

/-- The format a record is presented in (opcode_table.json, column `format`). -/
inductive Format where
  /-- a host operation, 30_encoding.md R105 -/
  | hop
  /-- a command, 30_encoding.md R104 -/
  | cmd
  /-- a transaction, 30_encoding.md R102 -/
  | q120
  /-- the selector of a bus-phase case, 30_encoding.md R108 -/
  | edge
  /-- an operation the spec gives no bit pattern, in the model's own serialisation (log 2) -/
  | call
  deriving DecidableEq, Repr, Inhabited

/-- One record presented to the block: a format and the record's bytes, in order. -/
structure OpRecord where
  fmt : Format
  bytes : List Byte
  deriving DecidableEq, Repr, Inhabited

end Sys2Proof
end

