-- ==== Sys2Proof/Syntax.lean ====
section
/-! DEFINITION. The operations of the block, one constructor per row of spec/opcode_table.json. -/

namespace Sys2Proof

/-- One operation (00_scope.md R3). `ch` is the 8-bit channel field of a command, `i` a channel index. -/
inductive Instr where
  -- HOP, 30_encoding.md R107
  | reset
  | generate (startOffset length : Word)
  | tick (isSystemTick : Bool)
  | dispatch (cmd : Cmd)
  | setchan (n : Word)
  | mute (index : Word) (b : Bool)
  | resync
  | rawwrite (addr value : Word)
  | rawbatch (pairs : List (Word × Word))
  | snapshot
  | effectname (code : Word)
  | setskip (b : Bool)
  | setlog (b : Bool)
  -- CMD, 30_encoding.md R106
  | noteOn (ch : Byte) (note : Word)
  | noteOff (ch : Byte)
  | instrument (ch : Byte) (value : Word)
  | volume (ch : Byte) (value : Word)
  | panning (ch : Byte) (value value2 : Word)
  | pitch (ch : Byte) (value : Word)
  | porta (ch : Byte) (value value2 : Word)
  | samplePos (ch : Byte) (value : Word)
  | filterMode (ch : Byte) (value : Word)
  | filterK1 (ch : Byte) (value : Word)
  | filterK2 (ch : Byte) (value : Word)
  | envCount (ch : Byte) (value : Word)
  | envLvramp (ch : Byte) (value : Word)
  | envRvramp (ch : Byte) (value : Word)
  | envK1ramp (ch : Byte) (value value2 : Word)
  | envK2ramp (ch : Byte) (value value2 : Word)
  | nopCmd (cmd : Cmd)
  -- Q120, 30_encoding.md R102
  | lwrite (address : BitVec 4) (value mask delay : Word)
  | lread (address : BitVec 4) (dest mask delay : Word)
  | bwr (step : BitVec 2) (address : BitVec 4) (value mask delay : Word)
  | brd (step : BitVec 2) (address : BitVec 4) (dest mask delay : Word)
  -- EDGE, 41_edge_sequencer.md R150
  | edge
  | edgeSvc
  | edgeBusy
  | edgeIdle
  | edgeRd
  | edgeWfull
  | edgeWstage
  | edgeWcommit
  -- TICK, 42_channel_translator.md R180, 43_keyon_keyoff.md R220
  | tMacro (i : ChIx) (m : MacroIn)
  | tVol (i : ChIx)
  | tFilt (i : ChIx) (m : MacroIn)
  | tEnv (i : ChIx)
  | tFreq (i : ChIx) (m : MacroIn)
  | tKeyon (i : ChIx) (m : MacroIn)
  | tKeyoff (i : ChIx)
  | tFreqw (i : ChIx)
  -- INTERNAL, 40_bus_queue.md, 60_exceptions.md R323
  | enqw (addr value mask delay : Word)
  | enqr (addr dest mask delay : Word)
  | expand
  | pagesel (p : Word) (pm : Byte)
  | pgwritem (p : Word) (pm : Byte) (r v m d : Word)
  | pgwrite (p r v m d : Word)
  | irqAssert
  deriving DecidableEq, Repr

end Sys2Proof
end

