-- ==== Sys2Proof/WellFormed.lean ====
section
/-! DEFINITION. Which operations have an encoding: an integer operand fits its field, a batch's count fits its
operand, NOP_CMD has none of the recognised kinds. -/

namespace Sys2Proof

/-- An integer fits a 32-bit two's-complement field. -/
def fits32 (v : Int) : Bool := decide (-0x80000000 ≤ v) && decide (v < 0x80000000)

/-- Both integers of a macro slot fit their fields (log 2). -/
def Slot.wf (t : Slot) : Bool := fits32 t.val && fits32 t.mode

/-- Every slot of a macro input fits. -/
def MacroIn.wf (m : MacroIn) : Bool :=
  m.vol.wf && m.panL.wf && m.panR.wf && m.arp.wf && m.pitch.wf && m.phaseReset.wf && m.duty.wf &&
    m.ex1.wf && m.ex2.wf && m.ex3.wf && m.ex4.wf

/-- The operation has an encoding. -/
def Instr.wf : Instr → Bool
  | .rawbatch pairs => decide (pairs.length < 2 ^ 32)
  | .nopCmd cmd => !knownKinds.contains cmd.kind
  | .tMacro _ m => m.wf
  | .tFilt _ m => m.wf
  | .tFreq _ m => m.wf
  | .tKeyon _ m => m.wf
  | .reset | .generate _ _ | .tick _ | .dispatch _ | .setchan _ | .mute _ _ | .resync | .rawwrite _ _
  | .snapshot | .effectname _ | .setskip _ | .setlog _
  | .noteOn _ _ | .noteOff _ | .instrument _ _ | .volume _ _ | .panning _ _ _ | .pitch _ _ | .porta _ _ _
  | .samplePos _ _ | .filterMode _ _ | .filterK1 _ _ | .filterK2 _ _ | .envCount _ _ | .envLvramp _ _
  | .envRvramp _ _ | .envK1ramp _ _ _ | .envK2ramp _ _ _
  | .lwrite _ _ _ _ | .lread _ _ _ _ | .bwr _ _ _ _ _ | .brd _ _ _ _ _
  | .edge | .edgeSvc | .edgeBusy | .edgeIdle | .edgeRd | .edgeWfull | .edgeWstage | .edgeWcommit
  | .tVol _ | .tEnv _ | .tKeyoff _ | .tFreqw _
  | .enqw _ _ _ _ | .enqr _ _ _ _ | .expand | .pagesel _ _ | .pgwritem _ _ _ _ _ _ | .pgwrite _ _ _ _ _
  | .irqAssert => true

end Sys2Proof
end

