-- ==== Sys2Proof/Decode.lean ====
section
/-! DEFINITION. The decoder of each format, total on any bytes, and after it the encoder (30_encoding.md R102 to
R108; the `call` format is the model's own, log 2). -/

namespace Sys2Proof

/-- Why a record is no operation. -/
inductive Reject where
  /-- the record holds no byte -/
  | emptyRecord
  /-- the code byte is none of 30_encoding.md R107 -/
  | unknownHostOperation (code : Byte)
  /-- the bytes after the code are not the operands of the operation -/
  | wrongOperands
  /-- the record is not an 80-bit command -/
  | notACommand
  /-- bits 119:113 not zero, state above 4 or address above 0x0F (30_encoding.md R102) -/
  | notATransaction
  /-- the byte is no 5-bit selector word (30_encoding.md R108) -/
  | notASelector
  /-- the first byte names no operation of the `call` format -/
  | unknownCall (code : Byte)
  deriving DecidableEq, Repr

/-- An optional result under the name of its rejection. -/
def orReject (r : Reject) : Option Instr → Except Reject Instr
  | some i => .ok i
  | none => .error r

/-- No operand. -/
def ops0 (i : Instr) : List Byte → Option Instr
  | [] => some i
  | _ => none

/-- One 32-bit operand. -/
def ops1 (f : Word → Instr) : List Byte → Option Instr
  | [a0, a1, a2, a3] => some (f (wordOfBytes a0 a1 a2 a3))
  | _ => none

/-- Two 32-bit operands. -/
def ops2 (f : Word → Word → Instr) : List Byte → Option Instr
  | [a0, a1, a2, a3, b0, b1, b2, b3] =>
    some (f (wordOfBytes a0 a1 a2 a3) (wordOfBytes b0 b1 b2 b3))
  | _ => none

/-- Four 32-bit operands. -/
def ops4 (f : Word → Word → Word → Word → Instr) : List Byte → Option Instr
  | [a0, a1, a2, a3, b0, b1, b2, b3, c0, c1, c2, c3, d0, d1, d2, d3] =>
    some (f (wordOfBytes a0 a1 a2 a3) (wordOfBytes b0 b1 b2 b3) (wordOfBytes c0 c1 c2 c3)
      (wordOfBytes d0 d1 d2 d3))
  | _ => none

/-- Pairs of 32-bit operands up to the end of the record. -/
def pairsOf : List Byte → Option (List (Word × Word))
  | [] => some []
  | a0 :: a1 :: a2 :: a3 :: b0 :: b1 :: b2 :: b3 :: rest =>
    (pairsOf rest).map fun ps => (wordOfBytes a0 a1 a2 a3, wordOfBytes b0 b1 b2 b3) :: ps
  | _ => none

/-- `count`, then `count` pairs (30_encoding.md R107, RAWBATCH). -/
def opsBatch : List Byte → Option Instr
  | n0 :: n1 :: n2 :: n3 :: rest =>
    match pairsOf rest with
    | some ps => if (wordOfBytes n0 n1 n2 n3).toNat = ps.length then some (.rawbatch ps) else none
    | none => none
  | _ => none

/-- The command record of ten bytes: kind, channel, value, value2 (30_encoding.md R104). -/
def cmdOf : List Byte → Option Cmd
  | [k, c, a0, a1, a2, a3, b0, b1, b2, b3] =>
    some { kind := k, channel := c, value := wordOfBytes a0 a1 a2 a3, value2 := wordOfBytes b0 b1 b2 b3 }
  | _ => none

/-- The operation a command record stands for, by its kind (30_encoding.md R106). -/
def decodeCmd (c : Cmd) : Instr :=
  match c.kind.toNat with
  | 0x01 => .noteOn c.channel c.value
  | 0x02 => .noteOff c.channel
  | 0x03 => .instrument c.channel c.value
  | 0x04 => .volume c.channel c.value
  | 0x05 => .panning c.channel c.value c.value2
  | 0x06 => .pitch c.channel c.value
  | 0x07 => .porta c.channel c.value c.value2
  | 0x08 => .samplePos c.channel c.value
  | 0x10 => .filterMode c.channel c.value
  | 0x11 => .filterK1 c.channel c.value
  | 0x12 => .filterK2 c.channel c.value
  | 0x18 => .envCount c.channel c.value
  | 0x19 => .envLvramp c.channel c.value
  | 0x1A => .envRvramp c.channel c.value
  | 0x1B => .envK1ramp c.channel c.value c.value2
  | 0x1C => .envK2ramp c.channel c.value c.value2
  | _ => .nopCmd c

/-- Format HOP (30_encoding.md R105, R107). -/
def decodeHop : List Byte → Except Reject Instr
  | [] => .error .emptyRecord
  | k :: rest =>
    match k.toNat with
    | 0x00 => orReject .wrongOperands (ops0 .reset rest)
    | 0x01 => orReject .wrongOperands (ops2 .generate rest)
    | 0x02 => orReject .wrongOperands (ops1 (fun w => .tick (boolOfWord w)) rest)
    | 0x03 => orReject .wrongOperands ((cmdOf rest).map .dispatch)
    | 0x04 => orReject .wrongOperands (ops1 .setchan rest)
    | 0x05 => orReject .wrongOperands (ops2 (fun i w => .mute i (boolOfWord w)) rest)
    | 0x06 => orReject .wrongOperands (ops0 .resync rest)
    | 0x07 => orReject .wrongOperands (ops2 .rawwrite rest)
    | 0x08 => orReject .wrongOperands (opsBatch rest)
    | 0x09 => orReject .wrongOperands (ops0 .snapshot rest)
    | 0x0A => orReject .wrongOperands (ops1 .effectname rest)
    | 0x0B => orReject .wrongOperands (ops1 (fun w => .setskip (boolOfWord w)) rest)
    | 0x0C => orReject .wrongOperands (ops1 (fun w => .setlog (boolOfWord w)) rest)
    | _ => .error (.unknownHostOperation k)

/-- Format Q120 (30_encoding.md R102): the first byte holds bits 119:112, and so on. A word of step 0 to 2 with a
delay is not among those R102 refuses, though no expansion makes one (R101): it is read as it stands,
DESIGN CHOICE, log 27. -/
def decodeQ120 : List Byte → Except Reject Instr
  | [z, st, ad, p0, p1, p2, p3, m0, m1, m2, m3, d0, d1, d2, d3] =>
    if ad.toNat ≤ 0x0F then
      match z.toNat, st.toNat with
      | 0, 4 => .ok (.lwrite (ad.setWidth 4) (wordOfBytes p0 p1 p2 p3) (wordOfBytes m0 m1 m2 m3)
          (wordOfBytes d0 d1 d2 d3))
      | 1, 4 => .ok (.lread (ad.setWidth 4) (wordOfBytes p0 p1 p2 p3) (wordOfBytes m0 m1 m2 m3)
          (wordOfBytes d0 d1 d2 d3))
      | 0, n => if n ≤ 3 then
          .ok (.bwr (st.setWidth 2) (ad.setWidth 4) (wordOfBytes p0 p1 p2 p3) (wordOfBytes m0 m1 m2 m3)
            (wordOfBytes d0 d1 d2 d3))
          else .error .notATransaction
      | 1, n => if n ≤ 3 then
          .ok (.brd (st.setWidth 2) (ad.setWidth 4) (wordOfBytes p0 p1 p2 p3) (wordOfBytes m0 m1 m2 m3)
            (wordOfBytes d0 d1 d2 d3))
          else .error .notATransaction
      | _, _ => .error .notATransaction
    else .error .notATransaction
  | _ => .error .notATransaction

/-- Format EDGE: the bus-phase case a 5-bit selector word selects (30_encoding.md R108). -/
def decodeSelector : List Byte → Except Reject Instr
  | [b] =>
    if b.toNat < 32 then
      if b.getLsbD 4 then .ok .edgeBusy
      else if b.getLsbD 3 then .ok .edgeIdle
      else if b.getLsbD 2 then .ok .edgeRd
      else if b.getLsbD 1 then .ok .edgeWfull
      else if b.getLsbD 0 then .ok .edgeWcommit
      else .ok .edgeWstage
    else .error .notASelector
  | _ => .error .notASelector

/-- Eleven macro slots of nine bytes each: had, val, mode (log 2). -/
def slotsOf : List Byte → Option (List Slot)
  | [] => some []
  | h :: a0 :: a1 :: a2 :: a3 :: b0 :: b1 :: b2 :: b3 :: rest =>
    if h.toNat ≤ 1 then
      (slotsOf rest).map fun ss =>
        { had := h.getLsbD 0, val := (wordOfBytes a0 a1 a2 a3).toInt
          mode := (wordOfBytes b0 b1 b2 b3).toInt } :: ss
    else none
  | _ => none

/-- The macro input that eleven slots make, in the order of 42_channel_translator.md R181. -/
def macroOf : List Slot → Option MacroIn
  | [v, l, r, a, p, ph, d, e1, e2, e3, e4] =>
    some { vol := v, panL := l, panR := r, arp := a, pitch := p, phaseReset := ph, duty := d
           ex1 := e1, ex2 := e2, ex3 := e3, ex4 := e4 }
  | _ => none

/-- A channel index operand of one byte. -/
def chanOf (b : Byte) : Option ChIx := if h : b.toNat < 32 then some ⟨b.toNat, h⟩ else none

/-- A channel index alone. -/
def opsChan (f : ChIx → Instr) : List Byte → Option Instr
  | [b] => (chanOf b).map f
  | _ => none

/-- A channel index and a macro input. -/
def opsMacro (f : ChIx → MacroIn → Instr) : List Byte → Option Instr
  | b :: rest =>
    match chanOf b, (slotsOf rest).bind macroOf with
    | some i, some m => some (f i m)
    | _, _ => none
  | _ => none

/-- PAGESEL: a page and a page mask. -/
def opsPagesel : List Byte → Option Instr
  | [p0, p1, p2, p3, pm] => some (.pagesel (wordOfBytes p0 p1 p2 p3) pm)
  | _ => none

/-- PGWRITEM: a page, a page mask, and the four operands of the write. -/
def opsPgwritem : List Byte → Option Instr
  | p0 :: p1 :: p2 :: p3 :: pm :: rest => ops4 (.pgwritem (wordOfBytes p0 p1 p2 p3) pm) rest
  | _ => none

/-- PGWRITE: a page and the four operands of the write. -/
def opsPgwrite : List Byte → Option Instr
  | p0 :: p1 :: p2 :: p3 :: rest => ops4 (.pgwrite (wordOfBytes p0 p1 p2 p3)) rest
  | _ => none

/-- The operations the spec gives no bit pattern, in the order of opcode_table.json (log 2). -/
def decodeCall : List Byte → Except Reject Instr
  | [] => .error .emptyRecord
  | k :: rest =>
    match k.toNat with
    | 0 => orReject .wrongOperands (ops0 .edge rest)
    | 1 => orReject .wrongOperands (ops0 .edgeSvc rest)
    | 2 => orReject .wrongOperands (opsMacro .tMacro rest)
    | 3 => orReject .wrongOperands (opsChan .tVol rest)
    | 4 => orReject .wrongOperands (opsMacro .tFilt rest)
    | 5 => orReject .wrongOperands (opsChan .tEnv rest)
    | 6 => orReject .wrongOperands (opsMacro .tFreq rest)
    | 7 => orReject .wrongOperands (opsMacro .tKeyon rest)
    | 8 => orReject .wrongOperands (opsChan .tKeyoff rest)
    | 9 => orReject .wrongOperands (opsChan .tFreqw rest)
    | 10 => orReject .wrongOperands (ops4 .enqw rest)
    | 11 => orReject .wrongOperands (ops4 .enqr rest)
    | 12 => orReject .wrongOperands (ops0 .expand rest)
    | 13 => orReject .wrongOperands (opsPagesel rest)
    | 14 => orReject .wrongOperands (opsPgwritem rest)
    | 15 => orReject .wrongOperands (opsPgwrite rest)
    | 16 => orReject .wrongOperands (ops0 .irqAssert rest)
    | _ => .error (.unknownCall k)

/-- The operation a record stands for. -/
def decode (r : OpRecord) : Except Reject Instr :=
  match r.fmt with
  | .hop => decodeHop r.bytes
  | .cmd => orReject .notACommand ((cmdOf r.bytes).map decodeCmd)
  | .q120 => decodeQ120 r.bytes
  | .edge => decodeSelector r.bytes
  | .call => decodeCall r.bytes

/-! ### The encoder -/

/-- The ten bytes of a command record (30_encoding.md R104). -/
def cmdBytes (c : Cmd) : List Byte := c.kind :: c.channel :: (wordBytes c.value ++ wordBytes c.value2)

/-- A command of a recognised kind. -/
def cmdRecord (kind ch : Byte) (value value2 : Word) : OpRecord :=
  ⟨.cmd, cmdBytes { kind := kind, channel := ch, value := value, value2 := value2 }⟩

/-- The fifteen bytes of a transaction (30_encoding.md R102). -/
def q120Record (isRead : Bool) (state : Byte) (address : BitVec 4) (payload mask delay : Word) : OpRecord :=
  ⟨.q120, (if isRead then 1 else 0) :: state :: address.setWidth 8 ::
    (wordBytes payload ++ wordBytes mask ++ wordBytes delay)⟩

/-- The nine bytes of a macro slot. -/
def slotBytes (t : Slot) : List Byte :=
  (if t.had then 1 else 0) :: (wordBytes (BitVec.ofInt 32 t.val) ++ wordBytes (BitVec.ofInt 32 t.mode))

/-- The ninety-nine bytes of a macro input. -/
def macroBytes (m : MacroIn) : List Byte :=
  slotBytes m.vol ++ slotBytes m.panL ++ slotBytes m.panR ++ slotBytes m.arp ++ slotBytes m.pitch ++
    slotBytes m.phaseReset ++ slotBytes m.duty ++ slotBytes m.ex1 ++ slotBytes m.ex2 ++ slotBytes m.ex3 ++
    slotBytes m.ex4

/-- The byte of a channel index. -/
def chanByte (i : ChIx) : Byte := BitVec.ofNat 8 i.val

/-- The record of an operation, written from the same tables. -/
def encode : Instr → OpRecord
  | .reset => ⟨.hop, [0x00]⟩
  | .generate o n => ⟨.hop, 0x01 :: (wordBytes o ++ wordBytes n)⟩
  | .tick b => ⟨.hop, 0x02 :: wordBytes (wordOfBool b)⟩
  | .dispatch c => ⟨.hop, 0x03 :: cmdBytes c⟩
  | .setchan n => ⟨.hop, 0x04 :: wordBytes n⟩
  | .mute i b => ⟨.hop, 0x05 :: (wordBytes i ++ wordBytes (wordOfBool b))⟩
  | .resync => ⟨.hop, [0x06]⟩
  | .rawwrite a v => ⟨.hop, 0x07 :: (wordBytes a ++ wordBytes v)⟩
  | .rawbatch ps => ⟨.hop, 0x08 :: (wordBytes (BitVec.ofNat 32 ps.length) ++
      ps.flatMap fun p => wordBytes p.1 ++ wordBytes p.2)⟩
  | .snapshot => ⟨.hop, [0x09]⟩
  | .effectname c => ⟨.hop, 0x0A :: wordBytes c⟩
  | .setskip b => ⟨.hop, 0x0B :: wordBytes (wordOfBool b)⟩
  | .setlog b => ⟨.hop, 0x0C :: wordBytes (wordOfBool b)⟩
  | .noteOn ch v => cmdRecord 0x01 ch v 0
  | .noteOff ch => cmdRecord 0x02 ch 0 0
  | .instrument ch v => cmdRecord 0x03 ch v 0
  | .volume ch v => cmdRecord 0x04 ch v 0
  | .panning ch v v2 => cmdRecord 0x05 ch v v2
  | .pitch ch v => cmdRecord 0x06 ch v 0
  | .porta ch v v2 => cmdRecord 0x07 ch v v2
  | .samplePos ch v => cmdRecord 0x08 ch v 0
  | .filterMode ch v => cmdRecord 0x10 ch v 0
  | .filterK1 ch v => cmdRecord 0x11 ch v 0
  | .filterK2 ch v => cmdRecord 0x12 ch v 0
  | .envCount ch v => cmdRecord 0x18 ch v 0
  | .envLvramp ch v => cmdRecord 0x19 ch v 0
  | .envRvramp ch v => cmdRecord 0x1A ch v 0
  | .envK1ramp ch v v2 => cmdRecord 0x1B ch v v2
  | .envK2ramp ch v v2 => cmdRecord 0x1C ch v v2
  | .nopCmd c => ⟨.cmd, cmdBytes c⟩
  | .lwrite a v m d => q120Record false 4 a v m d
  | .lread a t m d => q120Record true 4 a t m d
  | .bwr s a v m d => q120Record false (s.setWidth 8) a v m d
  | .brd s a t m d => q120Record true (s.setWidth 8) a t m d
  | .edgeBusy => ⟨.edge, [0x10]⟩
  | .edgeIdle => ⟨.edge, [0x08]⟩
  | .edgeRd => ⟨.edge, [0x04]⟩
  | .edgeWfull => ⟨.edge, [0x02]⟩
  | .edgeWstage => ⟨.edge, [0x00]⟩
  | .edgeWcommit => ⟨.edge, [0x01]⟩
  | .edge => ⟨.call, [0]⟩
  | .edgeSvc => ⟨.call, [1]⟩
  | .tMacro i m => ⟨.call, 2 :: chanByte i :: macroBytes m⟩
  | .tVol i => ⟨.call, [3, chanByte i]⟩
  | .tFilt i m => ⟨.call, 4 :: chanByte i :: macroBytes m⟩
  | .tEnv i => ⟨.call, [5, chanByte i]⟩
  | .tFreq i m => ⟨.call, 6 :: chanByte i :: macroBytes m⟩
  | .tKeyon i m => ⟨.call, 7 :: chanByte i :: macroBytes m⟩
  | .tKeyoff i => ⟨.call, [8, chanByte i]⟩
  | .tFreqw i => ⟨.call, [9, chanByte i]⟩
  | .enqw a v m d => ⟨.call, 10 :: (wordBytes a ++ wordBytes v ++ wordBytes m ++ wordBytes d)⟩
  | .enqr a t m d => ⟨.call, 11 :: (wordBytes a ++ wordBytes t ++ wordBytes m ++ wordBytes d)⟩
  | .expand => ⟨.call, [12]⟩
  | .pagesel p pm => ⟨.call, 13 :: (wordBytes p ++ [pm])⟩
  | .pgwritem p pm r v m d =>
    ⟨.call, 14 :: (wordBytes p ++ pm :: (wordBytes r ++ wordBytes v ++ wordBytes m ++ wordBytes d))⟩
  | .pgwrite p r v m d =>
    ⟨.call, 15 :: (wordBytes p ++ (wordBytes r ++ wordBytes v ++ wordBytes m ++ wordBytes d))⟩
  | .irqAssert => ⟨.call, [16]⟩

/-! ### The opcode table's words -/

/-- How many operand bytes follow the code byte of a host operation (30_encoding.md R107); `w` is the whole
word, least significant byte first, from which RAWBATCH's count is read. `none`: no such code. -/
def hopOperandBytes (code w : Nat) : Option Nat :=
  match code with
  | 0x00 => some 0
  | 0x01 => some 8
  | 0x02 => some 4
  | 0x03 => some 10
  | 0x04 => some 4
  | 0x05 => some 8
  | 0x06 => some 0
  | 0x07 => some 8
  | 0x08 =>
    match bytesUp 5 w with
    | [_, n0, n1, n2, n3] => some (4 + 8 * (wordOfBytes n0 n1 n2 n3).toNat)
    | _ => some 4
  | 0x09 => some 0
  | 0x0A => some 4
  | 0x0B => some 4
  | 0x0C => some 4
  | _ => none

/-- The record that a word of `nbits` bits of the opcode table stands for (log 3): 80 bits are a command and
120 bits a transaction, each one number whose most significant byte comes first; otherwise the low byte is a
host operation's code and the bytes above it its operands; a byte that is no such code, or a word of fewer than
eight bits, is a selector word. -/
def tableRecord (nbits w : Nat) : OpRecord :=
  let w := w % 2 ^ nbits
  if nbits = 80 then ⟨.cmd, bytesDown 10 w⟩
  else if nbits = 120 then ⟨.q120, bytesDown 15 w⟩
  else if nbits < 8 then ⟨.edge, bytesUp 1 w⟩
  else
    match hopOperandBytes (w % 256) w with
    | some n => ⟨.hop, bytesUp (1 + n) w⟩
    | none => if nbits = 8 ∧ w < 32 then ⟨.edge, bytesUp 1 w⟩ else ⟨.hop, bytesUp 1 w⟩

/-- The instruction the decoder reads from a word of the opcode table. -/
def decodeTableWord (nbits w : Nat) : Option Instr :=
  match decode (tableRecord nbits w) with
  | .ok i => some i
  | .error _ => none

end Sys2Proof
end

