-- ==== Sys2Proof/Config.lean ====
section
/-! DEFINITION. The configuration record of 00_scope.md R8, and the free functions that stand for what no
document gives. -/

namespace Sys2Proof

/-- Whether a configuration function with a default in the spec takes that default or is left free. -/
inductive FnChoice where
  | specDefault
  | free
  deriving DecidableEq, Repr, Inhabited

/-- What stands behind the bus: the opaque chip, or the register-pool device of
93_implementation_defined.md U4. -/
inductive DevKind where
  | chip
  | pool
  deriving DecidableEq, Repr, Inhabited

/-- The configuration record (00_scope.md R8). Its default values are `Cfg.default`. -/
structure Cfg where
  regCr : BitVec 4
  regFc : BitVec 4
  regLvol : BitVec 4
  regLvramp : BitVec 4
  regRvol : BitVec 4
  regRvramp : BitVec 4
  regEcount : BitVec 4
  regK2 : BitVec 4
  regK2ramp : BitVec 4
  regK1 : BitVec 4
  regK1ramp : BitVec 4
  regActv : BitVec 4
  regIrqv : BitVec 4
  regPage : BitVec 4
  regStart : BitVec 4
  regEnd : BitVec 4
  regAccum : BitVec 4
  /-- `PG_A`, the parameter page of each channel: any function to the 128 pages (D17) -/
  pageA : Bank (BitVec 7)
  /-- `PG_B`, the address page of each channel: any function to the 128 pages (D17) -/
  pageB : Bank (BitVec 7)
  pmFull : Byte
  pmCr : Byte
  pmGlobal : Byte
  /-- bit positions in the control register (30_encoding.md R115) -/
  crLpe : Nat
  crBle : Nat
  crIrqe : Nat
  crDir : Nat
  crLpShift : Nat
  crBsShift : Nat
  rampShift : Nat
  crWipeout : Word
  loopStartMask : Word
  loopEndMask : Word
  irqvMask : Word
  accIrqv : Nat
  chanInit : Chan
  filterDefault : Filter
  envDefault : Env
  freqCalcFn : FnChoice
  volMacroFn : FnChoice
  panMacroFn : FnChoice
  arpNoteFn : FnChoice
  envMacroFn : FnChoice
  loopCtlFn : FnChoice
  revFlipFn : FnChoice
  device : DevKind
  /-- Finite parts of the uninterpreted functions; an argument that is not listed is free (log 12). -/
  noteFreqTab : List (Int × Int)
  rateTab : List ((Rat × Rat × Int) × Rat)
  effectTab : List (Nat × Option String)
  deriving DecidableEq, Repr

/-- The instrument and sample store as one step finds it, a parameter of the step (00_scope.md R13,
44_command_dispatcher.md R251): a finite part of each, and which store it is; an index that is not listed is free,
and may differ from store to store (log 12). -/
structure Stores where
  version : Nat
  insTab : List (Nat × Instrument)
  sampleTab : List (Nat × Option Sample)
  deriving DecidableEq, Repr, Inhabited

/-- One operation presented to the block, with the store its step is given (00_scope.md R13). -/
structure Presented where
  record : OpRecord
  stores : Stores
  deriving DecidableEq, Repr, Inhabited

namespace Config

/-- The byte the opaque chip answers to the `n`-th free question, a `hostRead` of bus address `a`
(93 U4: any value). FREE VALUE, log 6. -/
opaque devRead (n : Nat) (a : BitVec 6) : Byte

/-- What the opaque chip answers to `regsRead(page, reg, peek)` after the calls made to it so far (93 U4). A peek is
no such call (20_memory.md R78), so that asking again answers the same. FREE VALUE, log 6. -/
opaque regsRead (calls : List DevCall) (page reg : Nat) : Word

/-- The events and outputs of a device tick, asked as the `n`-th free question (45_device_facade.md R295,
93 U14: any value). FREE VALUE, log 8. -/
opaque devTick (n : Nat) : DevTick

/-- `MacroAdvance(cursor, isSystemTick)`, asked as the `n`-th free question (42_channel_translator.md R181:
any value). FREE VALUE, log 9. -/
opaque macroAdvance (n cursor : Nat) (isSystemTick : Bool) : MacroStep

/-- `MacroInit(ins)` (44_command_dispatcher.md R270). FREE VALUE, log 12. -/
opaque macroInit (ins : Instrument) : Nat

/-- `NoteFreq(note)`, uninterpreted (44_command_dispatcher.md R270). FREE VALUE, log 12. -/
opaque noteFreq (note : Int) : Int

/-- `RateOffset(mappedFreq, centerRate, note)`, uninterpreted (44_command_dispatcher.md R270).
FREE VALUE, log 12. -/
opaque rateOffset (mappedFreq centerRate : Rat) (note : Int) : Rat

/-- `InsStore(ins)` for an instrument that the store `version` does not list (44_command_dispatcher.md R251).
FREE VALUE, log 12. -/
opaque instrument (version ins : Nat) : Instrument

/-- `SampleStore(index)` for a sample that the store `version` does not list (44_command_dispatcher.md R251).
FREE VALUE, log 12. -/
opaque sample (version index : Nat) : Option Sample

/-- `EffectNameTable(code)` (45_device_facade.md R308; the table is in no document). FREE VALUE, log 12. -/
opaque effectName (code : Nat) : Option String

/-- `FreqCalc` other than the default; it may read only these four (43_keyon_keyoff.md R221).
FREE VALUE, log 11. -/
opaque freqCalc (baseFreq pitch pitch2 : Int) (freqOffs : Rat) : Int

/-- `VolMacroApply` other than the default (42_channel_translator.md R183). FREE VALUE, log 11. -/
opaque volMacroApply (vol : Byte) (val : Int) : Half

/-- `PanMacroApply` other than the default (42_channel_translator.md R184). FREE VALUE, log 11. -/
opaque panMacroApply (pan : Byte) (val : Int) : Half

/-- `ArpNote` other than the default, and the default's value for a mode that is neither 0 nor 1, which the
spec does not state (42_channel_translator.md R185). FREE VALUE, log 11. -/
opaque arpNote (note val mode : Int) : Int

/-- `EnvMacroMap` other than the placeholder, asked where a slot is delivered (42_channel_translator.md R182, R191).
FREE VALUE, log 11. -/
opaque envMacroMap (ex3 ex4 : Slot) : List EnvUpdate

/-- `LoopCtl` other than the default (30_encoding.md R116). FREE VALUE, log 11. -/
opaque loopCtl (mode : LoopMode) (reversed : Bool) : Word

/-- `RevFlip` other than the default: value and mask (30_encoding.md R117). FREE VALUE, log 11. -/
opaque revFlip (reversed : Bool) : Word × Word

end Config

end Sys2Proof
end

