-- ==== Sys2Proof/Machine/Params.lean ====
section
/-! DEFINITION. The default configuration (00_scope.md R8, 92_eei_decisions.md) and the configuration functions:
the spec's default where the record asks for it, the free function otherwise. -/

namespace Sys2Proof

/-- ChanInit's default (10_state.md R36, R40, decision D30): every number 0, freqOffs 1, every flag 0, no sample,
ONESHOT; the macro cursor is the model's 0 (log 9, log 13). -/
def Chan.init : Chan where
  active := false
  ins := 0
  note := 0
  baseFreq := 0
  pitch := 0
  pitch2 := 0
  freqOffs := 1
  freq := 0
  vol := 0
  outVol := 0
  lVol := 0
  rVol := 0
  outLVol := 0
  outRVol := 0
  resLVol := 0
  resRVol := 0
  filter := { mode := 0, k1 := 0, k2 := 0 }
  k1Offs := 0
  k2Offs := 0
  env := { ecount := 0, lVRamp := 0, rVRamp := 0, k1Ramp := 0, k2Ramp := 0, k1Slow := false, k2Slow := false }
  pcm := { index := none, start := 0, endAddr := 0, loopStart := 0, loopEnd := 0, length := 0, bank := 0
           reversed := false, loopMode := .oneshot }
  isReverseLoop := false
  volChanged := false
  freqChanged := false
  filterChanged := { mode := false, k1 := false, k2 := false }
  envChanged := { ecount := false, lVRamp := false, rVRamp := false, k1Ramp := false, k2Ramp := false }
  keyOn := false
  keyOff := false
  inPorta := false
  cursor := 0

/-- The defaults of 00_scope.md R8 (decisions D9, D11, D17 to D19, D22, D26, D37); the register map is
PRESUMED by the spec itself (93 G2 to G6), log 10. -/
def Cfg.default : Cfg where
  regCr := 0x0
  regFc := 0x1
  regLvol := 0x2
  regLvramp := 0x3
  regRvol := 0x4
  regRvramp := 0x5
  regEcount := 0x6
  regK2 := 0x7
  regK2ramp := 0x8
  regK1 := 0x9
  regK1ramp := 0xA
  regActv := 0xB
  regIrqv := 0xE
  regPage := 0xF
  regStart := 0x1
  regEnd := 0x2
  regAccum := 0x3
  pageA := Bank.ofFn fun i => BitVec.ofNat 7 i.val
  pageB := Bank.ofFn fun i => 0x20 ||| BitVec.ofNat 7 i.val
  pmFull := 0xFF
  pmCr := 0x5F
  pmGlobal := 0x60
  crLpe := 3
  crBle := 4
  crIrqe := 5
  crDir := 6
  crLpShift := 8
  crBsShift := 14
  rampShift := 8
  crWipeout := 0x00000000
  loopStartMask := 0xFFFFF800
  loopEndMask := 0xFFFFFF80
  irqvMask := 0x0000009F
  accIrqv := 0
  chanInit := Chan.init
  filterDefault := Chan.init.filter
  envDefault := Chan.init.env
  freqCalcFn := .specDefault
  volMacroFn := .specDefault
  panMacroFn := .specDefault
  arpNoteFn := .specDefault
  envMacroFn := .specDefault
  loopCtlFn := .specDefault
  revFlipFn := .specDefault
  device := .chip
  noteFreqTab := []
  rateTab := []
  effectTab := []

/-- What a byte of the register pool that no bus write has reached reads as (log 7, DESIGN CHOICE). -/
def unlistedByte : Byte := 0

/-- `PG_A(i)`, the parameter page of channel i (00_scope.md R8). -/
def pgA (c : Cfg) (i : ChIx) : Byte := (c.pageA.get i).setWidth 8

/-- `PG_B(i)`, the address page of channel i (00_scope.md R8). -/
def pgB (c : Cfg) (i : ChIx) : Byte := (c.pageB.get i).setWidth 8

/-- The bit at a position of the control register. -/
def crBit (n : Nat) : Word := 1#32 <<< n

/-- `CR_LOOP_MASK` (30_encoding.md R115). -/
def crLoopMask (c : Cfg) : Word := crBit c.crLpe ||| crBit c.crBle ||| crBit c.crIrqe ||| crBit c.crDir

/-- The default `LoopCtl` (30_encoding.md R116, D24). -/
def loopCtlDefault (c : Cfg) (mode : LoopMode) (reversed : Bool) : Word :=
  let d : Word := if reversed then crBit c.crDir else 0
  match mode with
  | .oneshot => d
  | .forward => crBit c.crLpe ||| d
  | .backward => crBit c.crLpe ||| crBit c.crIrqe ||| d
  | .pingpong => crBit c.crLpe ||| crBit c.crBle ||| d

/-- `LoopCtl` (30_encoding.md R116). -/
def loopCtl (c : Cfg) (mode : LoopMode) (reversed : Bool) : Word :=
  match c.loopCtlFn with
  | .specDefault => loopCtlDefault c mode reversed
  | .free => Config.loopCtl mode reversed

/-- `RevFlip`: value and mask (30_encoding.md R117, D25). -/
def revFlip (c : Cfg) (reversed : Bool) : Word × Word :=
  match c.revFlipFn with
  | .specDefault => (if reversed then 0 else crBit c.crDir, crBit c.crDir)
  | .free => Config.revFlip reversed

/-- `FreqCalc` (43_keyon_keyoff.md R221); its default is the floor of (baseFreq + pitch + pitch2) × freqOffs. -/
def freqCalc (c : Cfg) (ch : Chan) : Int :=
  match c.freqCalcFn with
  | .specDefault => ((ch.baseFreq + ch.pitch + ch.pitch2) * ch.freqOffs.num) / (ch.freqOffs.den : Int)
  | .free => Config.freqCalc ch.baseFreq ch.pitch ch.pitch2 ch.freqOffs

/-- The default of `VolMacroApply` and of `PanMacroApply`: (v × clamp(val, 0, 0xFFFF)) / 0xFF
(42_channel_translator.md R183, R184, D27). -/
def scaleDefault (v : Byte) (val : Int) : Half :=
  BitVec.ofNat 16 (v.toNat * (clampInt val 0 0xFFFF).toNat / 0xFF)

/-- `VolMacroApply` (42_channel_translator.md R183). -/
def volMacroApply (c : Cfg) (vol : Byte) (val : Int) : Half :=
  match c.volMacroFn with
  | .specDefault => scaleDefault vol val
  | .free => Config.volMacroApply vol val

/-- `PanMacroApply` (42_channel_translator.md R184). -/
def panMacroApply (c : Cfg) (pan : Byte) (val : Int) : Half :=
  match c.panMacroFn with
  | .specDefault => scaleDefault pan val
  | .free => Config.panMacroApply pan val

/-- `ArpNote` (42_channel_translator.md R185, D27); a mode other than 0 and 1 is not stated: free (log 11). -/
def arpNote (c : Cfg) (note val mode : Int) : Int :=
  match c.arpNoteFn with
  | .specDefault => if mode = 0 then note + val else if mode = 1 then val else Config.arpNote note val mode
  | .free => Config.arpNote note val mode

/-- What a macro slot gives the envelope map: a slot that was not delivered is blank, whatever it holds
(42_channel_translator.md R182). -/
def Slot.delivered (t : Slot) : Slot := if t.had then t else { had := false, val := 0, mode := 0 }

/-- `EnvMacroMap` (42_channel_translator.md R191); the default is the spec's placeholder. Neither choice acts where
no slot is delivered, or reads a slot that is not (R182; log 11). -/
def envMacroMap (c : Cfg) (ex3 ex4 : Slot) : List EnvUpdate :=
  match c.envMacroFn with
  | .specDefault =>
    (if ex3.had then [.ecount (BitVec.ofInt 16 ex3.val)] else []) ++
      (if ex4.had then [.lVRamp (truncByte ex4.val), .rVRamp (truncByte ex4.val)] else [])
  | .free =>
    if ex3.had || ex4.had then Config.envMacroMap ex3.delivered ex4.delivered else []

/-- `NoteFreq` (44_command_dispatcher.md R270). -/
def noteFreq (c : Cfg) (note : Int) : Int := (c.noteFreqTab.lookup note).getD (Config.noteFreq note)

/-- `RateOffset` (44_command_dispatcher.md R270). -/
def rateOffset (c : Cfg) (mappedFreq centerRate : Rat) (note : Int) : Rat :=
  (c.rateTab.lookup (mappedFreq, centerRate, note)).getD (Config.rateOffset mappedFreq centerRate note)

/-- `InsStore` (44_command_dispatcher.md R251). -/
def insStore (st : Stores) (ins : Nat) : Instrument :=
  (st.insTab.lookup ins).getD (Config.instrument st.version ins)

/-- `SampleStore` (44_command_dispatcher.md R251). -/
def sampleStore (st : Stores) (index : Nat) : Option Sample :=
  (st.sampleTab.lookup index).getD (Config.sample st.version index)

/-- `EffectNameTable` (45_device_facade.md R308). -/
def effectNameTable (c : Cfg) (code : Nat) : Option String :=
  (c.effectTab.lookup code).getD (Config.effectName code)

end Sys2Proof
end

