-- ==== Sys2Proof/Machine/State.lean ====
section
/-! DEFINITION. The state of the block (10_state.md), as plain data, and the model's own fields beside it. -/

namespace Sys2Proof.Machine

/-- No fault exists: "the block raises no exception" (60_exceptions.md R320). Nothing raises one; safe. -/
inductive Fault where
  deriving DecidableEq, Repr

/-- Why a step has no meaning (60_exceptions.md R321, R322). -/
inductive Refusal where
  /-- An operation the model gives no meaning. Raised by no arm: every operation has its meaning. Safe. -/
  | notModelled (mnemonic : String)
  /-- The record at the port is no operation of its format. Raised by step; safe. -/
  | noOperation (why : Reject)
  /-- A channel index outside 0..31 (R321, U1). Raised by a recognised command and by MUTE; safe. -/
  | channelOutOfRange
  /-- A logical address above 15 (R321, D2). Raised by ENQW, ENQR, PGWRITEM, PGWRITE, RAWWRITE, RAWBATCH; safe. -/
  | addressOutOfRange
  /-- A page above 127 (R321, D2). Raised by PAGESEL, PGWRITEM, PGWRITE; safe. -/
  | pageOutOfRange
  /-- An accumulator index not below NACC (R321, D47). Raised by ENQR, LREAD, BRD; safe. -/
  | accumulatorOutOfRange
  deriving DecidableEq, Repr

/-- The register pool's bytes, (page * 64 + bus address, byte), addresses strictly rising, no byte listed that
equals `unlistedByte` (20_memory.md R70; log 7). -/
abbrev Memory := List Host.Cell

/-- What a step answers. -/
abbrev Result (σ : Type) := Host.Outcome σ Fault Refusal

/-- The state of the block (10_state.md R20) and, from `cfg` on, the model's own fields. -/
structure State where
  /-- the logical queue (R22) -/
  lq : List LT
  /-- the physical queue (R23) -/
  pq : List PT
  /-- the busy countdown (R24) -/
  cycle : Nat
  /-- R25 -/
  wasRead : Bool
  /-- R26 -/
  holdVal : Byte
  /-- R26 -/
  holdValid : Bool
  /-- R28 -/
  irqLatched : Bool
  /-- the read accumulators, NACC of them (R29) -/
  acc : List Word
  /-- R30 -/
  skipWrites : Bool
  /-- R31 -/
  logEnable : Bool
  /-- R31: (bus address, data), oldest first -/
  writeLog : List (Byte × Byte)
  /-- R32 -/
  chanMax : BitVec 5
  /-- R32 -/
  initChanMax : BitVec 5
  /-- R33 -/
  muted : Bank Bool
  /-- the shadow page (R34) -/
  curPage : Byte
  /-- R35, R36 -/
  ch : Bank Chan
  /-- MODEL: the configuration record, written by no step (log 10) -/
  cfg : Cfg
  /-- MODEL: the operations presented to the block, oldest first, each with the store of its step (log 1, 12) -/
  port : List Presented
  /-- MODEL: the instrument and sample store of this step, a parameter (R13; log 12) -/
  stores : Stores
  /-- MODEL: the device ticks to come, as far as they are scripted (log 8) -/
  tickIn : List DevTick
  /-- MODEL: the macro inputs to come, as far as they are scripted (log 9) -/
  macroIn : List MacroStep
  /-- MODEL: how many free questions of reads, ticks and macro inputs have been asked (log 6) -/
  freeCtr : Nat
  /-- MODEL: the result code of the last command (R250; log 14) -/
  code : Option Nat
  /-- MODEL: the stereo pairs of the last GENERATE (R295; log 14) -/
  samples : List StereoSample
  /-- MODEL: the buffer of the last SNAPSHOT (R307; log 14) -/
  snapshot : List Byte
  /-- MODEL: the answer of the last EFFECTNAME (R308; log 14) -/
  effectName : Option String
  /-- MODEL: the calls made to the device, oldest first (R16; log 19) -/
  trace : List DevCall
  /-- MODEL: how many edges have passed (R16; log 19) -/
  edgeNo : Nat
  /-- MODEL: the device's register pool as bus writes leave it (R41; log 7) -/
  pool : Memory
  /-- MODEL: the device's page register as bus writes leave it (R41; log 7) -/
  devPage : BitVec 7
  deriving DecidableEq, Repr

/-- The machine right after reset (70_reset_and_hazards.md R350, R351): RESET applied with nothing muted,
skipWrites and logEnable 0, the log empty and initChanMax 31. -/
def State.reset : State where
  lq := [{ payload := .write 0x00000000, address := 0xF, mask := allBits, delay := 0 },
         { payload := .write 0x0000001F, address := 0xB, mask := allBits, delay := 0 }]
  pq := []
  cycle := 0
  wasRead := false
  holdVal := 0
  holdValid := false
  irqLatched := false
  acc := [0x00000080]
  skipWrites := false
  logEnable := false
  writeLog := []
  chanMax := 31
  initChanMax := 31
  muted := Bank.fill false
  curPage := 0
  ch := Bank.fill Chan.init
  cfg := Cfg.default
  port := []
  stores := { version := 0, insTab := [], sampleTab := [] }
  tickIn := []
  macroIn := []
  freeCtr := 0
  code := none
  samples := []
  snapshot := []
  effectName := none
  trace := .reset :: (List.finRange 32).map fun i => .setMute i false
  edgeNo := 0
  pool := []
  devPage := 0

end Sys2Proof.Machine
end

