-- ==== Sys2Proof/Machine/Operands.lean ====
section
/-! DEFINITION. Every value the block computes from operands and fields: bytes of a step, ramp words, volumes,
coefficients, sample regions (30_encoding.md section 3, 42_channel_translator.md R190, R193,
44_command_dispatcher.md R269). -/

namespace Sys2Proof.Machine

/-- `w.isRead` (30_encoding.md R100). -/
def isReadOf (p : Payload) : Bool :=
  match p with
  | .write _ => false
  | .read _ => true

/-- The byte mask of a physical transaction's step (30_encoding.md R109). -/
def byteMask (w : PT) : Byte := byteOf w.mask w.step

/-- The bus address of a physical transaction (30_encoding.md R109). -/
def ptAddr (w : PT) : BitVec 6 := busAddr w.address w.step

/-- What a partial write byte stages: the new bits under the mask, the device's elsewhere
(41_edge_sequencer.md R156). -/
def mergeByte (new old bm : Byte) : Byte := (new &&& bm) ||| (old &&& ~~~bm)

/-- The accumulator after one byte of a read is merged into it (41_edge_sequencer.md R153). -/
def mergeRead (acc mask : Word) (s : BitVec 2) (b : Byte) : Word :=
  (acc &&& ~~~((0xFF#32 <<< shiftOf s) &&& mask)) ||| ((b.setWidth 32 <<< shiftOf s) &&& mask)

/-- The four physical transactions of a logical one (40_bus_queue.md R134, 30_encoding.md R101). -/
def expandLT (w : LT) : List PT :=
  [{ payload := w.payload, step := 0, address := w.address, mask := w.mask, delay := 0 },
   { payload := w.payload, step := 1, address := w.address, mask := w.mask, delay := 0 },
   { payload := w.payload, step := 2, address := w.address, mask := w.mask, delay := 0 },
   { payload := w.payload, step := 3, address := w.address, mask := w.mask, delay := w.delay }]

/-- `RampWord` (30_encoding.md R110, D19). -/
def rampWord (c : Cfg) (r : Byte) : Word := r.setWidth 32 <<< c.rampShift

/-- `RampWordK` (30_encoding.md R110). -/
def rampWordK (c : Cfg) (r : Byte) (slow : Bool) : Word := rampWord c r ||| wordOfBool slow

/-- The mask of a two-bit field of the control register (30_encoding.md R111). -/
def crField (shift : Nat) : Word := 3#32 <<< shift

/-- A two-bit value in a field of the control register (30_encoding.md R111). -/
def inCrField (v : BitVec 2) (shift : Nat) : Word := v.setWidth 32 <<< shift

/-- `(outVol * outPanVol) / 65535` (42_channel_translator.md R190). -/
def resultantVol (outVol pan : Half) : Half := BitVec.ofNat 16 (outVol.toNat * pan.toNat / 65535)

/-- `clamp(value, 0, 255)` of VOLUME and PANNING (44_command_dispatcher.md R255, R256). -/
def clampVol (v : Int) : Byte := BitVec.ofInt 8 (clampInt v 0 255)

/-- `(0xFFFF * v) / 0xFF` (44_command_dispatcher.md R255). -/
def fullScale (v : Byte) : Half := BitVec.ofNat 16 (0xFFFF * v.toNat / 0xFF)

/-- `EffK`: the coefficient written, the captured offset added where the slot's mode is relative
(42_channel_translator.md R193). -/
def effK (k : Half) (offs : Int) (slot : Slot) : Half :=
  if slot.mode = 0 then clampHalf (k.toNat + offs) else k

/-- The effective frequency, clamped to 17 bits (43_keyon_keyoff.md R220). -/
def effFreq (c : Cfg) (ch : Chan) : BitVec 17 := BitVec.ofInt 17 (clampInt (freqCalc c ch) 0 0x1FFFF)

/-- `4 × ((chanMax + 1) × 2)` (43_keyon_keyoff.md R226). -/
def keyOnDelay (chanMax : BitVec 5) : Word := BitVec.ofNat 32 (4 * ((chanMax.toNat + 1) * 2))

/-- A position in whole samples in the device's address format, 11 fraction bits (30_encoding.md R114). -/
def samplePosition (n : Nat) : Word := BitVec.ofNat 32 (n <<< 11)

/-- `SampleRegion` (44_command_dispatcher.md R269): the playback region with its sample's length, loop mode and
direction (R252). -/
def sampleRegion (c : Cfg) (index : Nat) (smp : Sample) : Pcm :=
  let start := samplePosition (smp.offset % 2 ^ 21)
  { index := some index
    start := start
    endAddr := start + samplePosition (smp.length - 1)
    loopStart := (start + samplePosition smp.loopStart) &&& c.loopStartMask
    loopEnd := (start + samplePosition (max smp.loopEnd 1 - 1)) &&& c.loopEndMask
    length := smp.length
    bank := BitVec.ofNat 2 (smp.offset >>> 21)
    reversed := smp.reversed
    loopMode := smp.loopMode }

/-- The accumulator position of a seek (44_command_dispatcher.md R259). -/
def seekAddr (p : Pcm) (pos : Nat) : Word :=
  if p.reversed then p.endAddr - samplePosition pos else p.start + samplePosition pos

/-- Whether a seek is inside the assigned sample (44_command_dispatcher.md R259). -/
def seekValid (p : Pcm) (pos : Int) : Bool :=
  p.index.isSome && decide (0 ≤ pos) && decide (pos < (p.length : Int))

/-- `clamp(x, -32768, 32767)` as a 16-bit sample (45_device_facade.md R295, D48). -/
def outSample (x : Int) : Half := BitVec.ofInt 16 (clampInt x (-32768) 32767)

/-- The pool address of a bus address on a page (20_memory.md R70, R72). -/
def poolAddr (page : BitVec 7) (a : BitVec 6) : Nat := page.toNat * 64 + a.toNat

/-- The packed bus cycle of 30_encoding.md R103: bit 14 write, bits 13:8 address, bits 7:0 data. -/
def packBus (c : BusCycle) : BitVec 15 :=
  (if c.write then 1#1 else 0#1) ++ c.addr ++ c.data

end Sys2Proof.Machine
end

