-- ==== Sys2Proof/Machine/Flags.lean ====
section
/-! DEFINITION. The dirty and pending flags: what sets them, how they are cleared (10_state.md R37 to R39). Every
writer of a field with a dirty flag is one of the setters here. -/

namespace Sys2Proof

/-- The flag after `SetIfChanged`: set if the new value differs, else as it was (10_state.md R38). -/
def dirtyIf {α : Type} [DecidableEq α] (flag : Bool) (old new : α) : Bool :=
  if old = new then flag else true

/-- `filterChanged.any` (10_state.md R39). -/
def FilterFlags.any (f : FilterFlags) : Bool := f.mode || f.k1 || f.k2

/-- `envChanged.any` (10_state.md R39). -/
def EnvFlags.any (f : EnvFlags) : Bool := f.ecount || f.lVRamp || f.rVRamp || f.k1Ramp || f.k2Ramp

/-- All three filter flags at one value. -/
def FilterFlags.all (b : Bool) : FilterFlags := { mode := b, k1 := b, k2 := b }

/-- All five envelope flags at one value. -/
def EnvFlags.all (b : Bool) : EnvFlags := { ecount := b, lVRamp := b, rVRamp := b, k1Ramp := b, k2Ramp := b }

/-- Every dirty flag of the channel set (45_device_facade.md R304, 44_command_dispatcher.md R252). -/
def Chan.markAll (c : Chan) : Chan :=
  { c with volChanged := true, freqChanged := true, filterChanged := FilterFlags.all true
           envChanged := EnvFlags.all true }

/-- SetIfChanged of `outVol`. -/
def Chan.setOutVol (c : Chan) (v : Half) : Chan :=
  { c with outVol := v, volChanged := dirtyIf c.volChanged c.outVol v }

/-- SetIfChanged of `outLVol`. -/
def Chan.setOutLVol (c : Chan) (v : Half) : Chan :=
  { c with outLVol := v, volChanged := dirtyIf c.volChanged c.outLVol v }

/-- SetIfChanged of `outRVol`. -/
def Chan.setOutRVol (c : Chan) (v : Half) : Chan :=
  { c with outRVol := v, volChanged := dirtyIf c.volChanged c.outRVol v }

/-- SetIfChanged of `baseFreq`. -/
def Chan.setBaseFreq (c : Chan) (v : Int) : Chan :=
  { c with baseFreq := v, freqChanged := dirtyIf c.freqChanged c.baseFreq v }

/-- SetIfChanged of `pitch`. -/
def Chan.setPitch (c : Chan) (v : Int) : Chan :=
  { c with pitch := v, freqChanged := dirtyIf c.freqChanged c.pitch v }

/-- SetIfChanged of `pitch2`. -/
def Chan.setPitch2 (c : Chan) (v : Int) : Chan :=
  { c with pitch2 := v, freqChanged := dirtyIf c.freqChanged c.pitch2 v }

/-- SetIfChanged of `filter.mode`. -/
def Chan.setFilterMode (c : Chan) (v : BitVec 2) : Chan :=
  { c with filter.mode := v, filterChanged.mode := dirtyIf c.filterChanged.mode c.filter.mode v }

/-- SetIfChanged of `filter.k1`. -/
def Chan.setK1 (c : Chan) (v : Half) : Chan :=
  { c with filter.k1 := v, filterChanged.k1 := dirtyIf c.filterChanged.k1 c.filter.k1 v }

/-- SetIfChanged of `filter.k2`. -/
def Chan.setK2 (c : Chan) (v : Half) : Chan :=
  { c with filter.k2 := v, filterChanged.k2 := dirtyIf c.filterChanged.k2 c.filter.k2 v }

/-- SetIfChanged of `k1Offs`, whose flag is that of k1 (42_channel_translator.md R189). -/
def Chan.setK1Offs (c : Chan) (v : Int) : Chan :=
  { c with k1Offs := v, filterChanged.k1 := dirtyIf c.filterChanged.k1 c.k1Offs v }

/-- SetIfChanged of `k2Offs`, whose flag is that of k2 (42_channel_translator.md R189). -/
def Chan.setK2Offs (c : Chan) (v : Int) : Chan :=
  { c with k2Offs := v, filterChanged.k2 := dirtyIf c.filterChanged.k2 c.k2Offs v }

/-- SetIfChanged of `env.ecount`. -/
def Chan.setEcount (c : Chan) (v : Half) : Chan :=
  { c with env.ecount := v, envChanged.ecount := dirtyIf c.envChanged.ecount c.env.ecount v }

/-- SetIfChanged of `env.lVRamp`. -/
def Chan.setLVRamp (c : Chan) (v : Byte) : Chan :=
  { c with env.lVRamp := v, envChanged.lVRamp := dirtyIf c.envChanged.lVRamp c.env.lVRamp v }

/-- SetIfChanged of `env.rVRamp`. -/
def Chan.setRVRamp (c : Chan) (v : Byte) : Chan :=
  { c with env.rVRamp := v, envChanged.rVRamp := dirtyIf c.envChanged.rVRamp c.env.rVRamp v }

/-- SetIfChanged of `env.k1Ramp`. -/
def Chan.setK1Ramp (c : Chan) (v : Byte) : Chan :=
  { c with env.k1Ramp := v, envChanged.k1Ramp := dirtyIf c.envChanged.k1Ramp c.env.k1Ramp v }

/-- SetIfChanged of `env.k2Ramp`. -/
def Chan.setK2Ramp (c : Chan) (v : Byte) : Chan :=
  { c with env.k2Ramp := v, envChanged.k2Ramp := dirtyIf c.envChanged.k2Ramp c.env.k2Ramp v }

/-- SetIfChanged of `env.k1Slow`, whose flag is that of the ramp (42_channel_translator.md R191, R194). -/
def Chan.setK1Slow (c : Chan) (b : Bool) : Chan :=
  { c with env.k1Slow := b, envChanged.k1Ramp := dirtyIf c.envChanged.k1Ramp c.env.k1Slow b }

/-- SetIfChanged of `env.k2Slow`, whose flag is that of the ramp (42_channel_translator.md R191, R194). -/
def Chan.setK2Slow (c : Chan) (b : Bool) : Chan :=
  { c with env.k2Slow := b, envChanged.k2Ramp := dirtyIf c.envChanged.k2Ramp c.env.k2Slow b }

/-- One pair of `EnvMacroMap` applied (42_channel_translator.md R191). -/
def Chan.applyEnv (c : Chan) (u : EnvUpdate) : Chan :=
  match u with
  | .ecount v => c.setEcount v
  | .lVRamp v => c.setLVRamp v
  | .rVRamp v => c.setRVRamp v
  | .k1Ramp v => c.setK1Ramp v
  | .k2Ramp v => c.setK2Ramp v
  | .k1Slow b => c.setK1Slow b
  | .k2Slow b => c.setK2Slow b

end Sys2Proof
end

