-- ==== Sys2Proof/Machine/Ops.lean ====
section
/-! DEFINITION. The named operations over the queues, the page register, the device, the channels and the
interrupt latch, which every meaning calls. There is no exception to take or to return from
(60_exceptions.md R320, R327); what plays that part is `State.irqAssert` and `State.irqService`. -/

namespace Sys2Proof.Machine

/-! ### Channels -/

/-- `ch[i]`. -/
def State.chan (s : State) (i : ChIx) : Chan := s.ch.get i

/-- `ch[i] <- c`. -/
def State.setChan (s : State) (i : ChIx) (c : Chan) : State := { s with ch := s.ch.set i c }

/-- A channel changed in place. -/
def State.modChan (s : State) (i : ChIx) (f : Chan → Chan) : State := s.setChan i (f (s.chan i))

/-- The channel that an 8-bit channel field names, or the refusal (60_exceptions.md R321). -/
def withChannel (ch : Byte) (k : ChIx → Result State) : Result State :=
  if h : ch.toNat < 32 then k ⟨ch.toNat, h⟩ else .refused .channelOutOfRange

/-! ### The queues (40_bus_queue.md) -/

/-- The logical address a 32-bit operand names, or the refusal (40_bus_queue.md R130, D2). -/
def withAddress (addr : Word) (k : BitVec 4 → Result State) : Result State :=
  if addr.toNat ≤ 15 then k (addr.setWidth 4) else .refused .addressOutOfRange

/-- The page a 32-bit operand names, or the refusal (40_bus_queue.md R135, D2). -/
def withPage (p : Word) (k : Byte → Result State) : Result State :=
  if p.toNat ≤ 127 then k (p.setWidth 8) else .refused .pageOutOfRange

/-- The accumulator a 32-bit operand names, or the refusal (40_bus_queue.md R131, D47). -/
def withAccumulator (s : State) (dest : Word) (k : Nat → Result State) : Result State :=
  if dest.toNat < s.acc.length then k dest.toNat else .refused .accumulatorOutOfRange

/-- `push(LQ, t)`. -/
def State.pushLQ (s : State) (w : LT) : State := { s with lq := s.lq ++ [w] }

/-- `push(PQ, t)`. -/
def State.pushPQ (s : State) (w : PT) : State := { s with pq := s.pq ++ [w] }

/-- ENQW on a legal address (40_bus_queue.md R130). -/
def State.enqw (s : State) (addr : BitVec 4) (value mask delay : Word) : State :=
  if s.skipWrites then s
  else s.pushLQ { payload := .write value, address := addr, mask := mask, delay := delay }

/-- ENQR on a legal address and accumulator (40_bus_queue.md R131). -/
def State.enqr (s : State) (addr : BitVec 4) (dest : Nat) (mask delay : Word) : State :=
  s.pushLQ { payload := .read dest, address := addr, mask := mask, delay := delay }

/-- EXPAND: LQ drained into PQ (40_bus_queue.md R134). -/
def State.expand (s : State) : State := { s with lq := [], pq := s.pq ++ s.lq.flatMap expandLT }

/-- `NeedsSwitch(p, pm)` (20_memory.md R81). -/
def State.needsSwitch (s : State) (p pm : Byte) : Bool := p &&& pm != s.curPage &&& pm

/-- PAGESEL on a legal page (40_bus_queue.md R135). -/
def State.pageSel (s : State) (p pm : Byte) : State :=
  if s.skipWrites then s
  else if s.needsSwitch p pm then
    { s with curPage := p }.enqw s.cfg.regPage (p.setWidth 32) allBits 0
  else s

/-- PGWRITEM on a legal page and register (40_bus_queue.md R136). -/
def State.pgWriteM (s : State) (p pm : Byte) (r : BitVec 4) (v m d : Word) : State :=
  (s.pageSel p pm).enqw r v m d

/-- PGWRITE on a legal page and register (40_bus_queue.md R137). -/
def State.pgWrite (s : State) (p : Byte) (r : BitVec 4) (v m d : Word) : State :=
  s.pgWriteM p s.cfg.pmFull r v m d

/-- A register of channel i's parameter page written whole, without delay. -/
def State.writeA (s : State) (i : ChIx) (r : BitVec 4) (v : Word) : State :=
  s.pgWrite (pgA s.cfg i) r v allBits 0

/-- A register of channel i's address page written whole, without delay. -/
def State.writeB (s : State) (i : ChIx) (r : BitVec 4) (v : Word) : State :=
  s.pgWrite (pgB s.cfg i) r v allBits 0

/-- The control register of channel i written under a mask (40_bus_queue.md R138). -/
def State.writeCr (s : State) (i : ChIx) (v m : Word) : State :=
  s.pgWriteM (pgA s.cfg i) s.cfg.pmCr s.cfg.regCr v m 0

/-! ### The register pool -/

/-- One byte of the pool. -/
def Memory.read (m : Memory) (a : Nat) : Byte := (m.lookup a).getD unlistedByte

/-- One byte of the pool written; the canonical form is kept. -/
def Memory.write (m : Memory) (a : Nat) (v : Byte) : Memory :=
  match m with
  | [] => if v = unlistedByte then [] else [(a, v)]
  | (b, w) :: t =>
    if b < a then (b, w) :: Memory.write t a v
    else if b = a then (if v = unlistedByte then t else (a, v) :: t)
    else if v = unlistedByte then (b, w) :: t else (a, v) :: (b, w) :: t

/-- The canonical form holds from an address on: addresses strictly rising, no unlisted value listed. -/
def Memory.wfFrom (lo : Nat) : Memory → Bool
  | [] => true
  | (b, w) :: t => decide (lo ≤ b) && decide (w ≠ unlistedByte) && Memory.wfFrom (b + 1) t

/-- The canonical form of the pool. -/
def Memory.wf (m : Memory) : Bool := Memory.wfFrom 0 m

/-- A register of the pool, its four bytes most significant first (20_memory.md R70, R73). -/
def poolReg (m : Memory) (page reg : Nat) : Word :=
  let a := page * 64 + reg * 4
  wordOfBytes (m.read a) (m.read (a + 1)) (m.read (a + 2)) (m.read (a + 3))

/-! ### The device (00_scope.md R12) -/

/-- A call of the device noted in the trace. -/
def State.note (s : State) (c : DevCall) : State := { s with trace := s.trace ++ [c] }

/-- What `hostRead(a)` answers: the pool's byte, or for the chip a free value (93 U4; log 6). -/
def State.hostByte (s : State) (a : BitVec 6) : Byte :=
  match s.cfg.device with
  | .pool => s.pool.read (poolAddr s.devPage a)
  | .chip => Config.devRead s.freeCtr a

/-- The state after `MemRead(a, 1)` answered `b`. -/
def State.memRead (s : State) (a : BitVec 6) (b : Byte) : State :=
  { s with freeCtr := s.freeCtr + 1 }.note
    (.bus { edge := s.edgeNo, write := false, addr := a, data := b })

/-- `MemWrite(a, 1, v)`: the pool's byte on the page now selected, and the page register where `a` is its last
byte (93 U4, 95 conventions; log 7). -/
def State.memWrite (s : State) (a : BitVec 6) (v : Byte) : State :=
  { s with pool := Memory.write s.pool (poolAddr s.devPage a) v
           devPage := if a = busAddr s.cfg.regPage 3 then v.setWidth 7 else s.devPage }.note
    (.bus { edge := s.edgeNo, write := true, addr := a, data := v })

/-- A committed write byte: the bus write and, if enabled, the log (41_edge_sequencer.md R155, R157, R161). -/
def State.commit (s : State) (a : BitVec 6) (v : Byte) : State :=
  let t := s.memWrite a v
  if s.logEnable then { t with writeLog := t.writeLog ++ [(a.setWidth 8, v)] } else t

/-- What `Dev.regsRead(page, reg, peek)` answers (00_scope.md R12): the pool's word, or for the chip a free value of
the calls made to it, of which a peek is none (20_memory.md R78; log 6). -/
def State.regsRead (s : State) (page reg : Nat) : Word :=
  match s.cfg.device with
  | .pool => poolReg s.pool page reg
  | .chip => Config.regsRead s.trace page reg

/-- The next device tick: scripted, or free (45_device_facade.md R295; log 8). -/
def State.nextTick (s : State) : DevTick := s.tickIn.headD (Config.devTick s.freeCtr)

/-- The state once the next device tick has been asked for. -/
def State.takeTick (s : State) : State :=
  match s.tickIn with
  | _ :: rest => { s with tickIn := rest }.note .tick
  | [] => { s with freeCtr := s.freeCtr + 1 }.note .tick

/-- `MacroAdvance(ch[i].macro, isSystemTick)`: scripted, or free (42_channel_translator.md R180, R181; log 9). -/
def State.nextMacro (s : State) (i : ChIx) (isSystemTick : Bool) : MacroStep :=
  s.macroIn.headD (Config.macroAdvance s.freeCtr (s.chan i).cursor isSystemTick)

/-- The state once channel i's macro cursor has advanced. -/
def State.takeMacro (s : State) (i : ChIx) (isSystemTick : Bool) : State :=
  let m := s.nextMacro i isSystemTick
  let t := match s.macroIn with
    | _ :: rest => { s with macroIn := rest }
    | [] => { s with freeCtr := s.freeCtr + 1 }
  t.modChan i fun c => { c with cursor := m.cursor }

/-! ### The sequencer's completion, the interrupt latch and its service -/

/-- `if w.step = 3 then cycle <- w.delay` and `pop(PQ)` (41_edge_sequencer.md R153, R155, R157). -/
def State.finishByte (s : State) (w : PT) : State :=
  { s with cycle := if w.step = 3 then w.delay.toNat else s.cycle, pq := s.pq.tail }

/-- IRQ_ASSERT: the latch is set and the vector read is queued (60_exceptions.md R323). -/
def State.irqAssert (s : State) : State :=
  { s with irqLatched := true }.enqr s.cfg.regIrqv s.cfg.accIrqv s.cfg.irqvMask 0

/-- `acc[ACC_IRQV][7:0]` (10_state.md R29). -/
def State.irqVector (s : State) : Byte := (s.acc.getD s.cfg.accIrqv 0).setWidth 8

/-- The channel index in the low five bits of a vector (41_edge_sequencer.md R151). -/
def vectorChannel (v : Byte) : ChIx := ⟨(v.setWidth 5).toNat, (v.setWidth 5).isLt⟩

/-- The direction flip of channel c: the masked write is queued, the pending flag cleared
(41_edge_sequencer.md R151). -/
def State.reverseFlip (s : State) (c : ChIx) : State :=
  let vm := revFlip s.cfg (s.chan c).pcm.reversed
  (s.writeCr c vm.1 vm.2).modChan c fun x => { x with isReverseLoop := false }

/-- EDGE.SVC: the interrupt service phase (41_edge_sequencer.md R151, 60_exceptions.md R326). -/
def State.irqService (s : State) : State :=
  if s.wasRead then
    let t := { s with wasRead := false }
    if s.irqLatched then
      let u := { t with irqLatched := false }
      let v := s.irqVector
      if v.getLsbD 7 then u
      else if (s.chan (vectorChannel v)).isReverseLoop then u.reverseFlip (vectorChannel v)
      else u
    else t
  else s

/-! ### Results and reset -/

/-- The result code of a command (44_command_dispatcher.md R250). -/
def State.setCode (s : State) (n : Nat) : State := { s with code := some n }

/-- RESET (45_device_facade.md R290). -/
def State.resetOp (s : State) : State :=
  let t : State :=
    { s with lq := [], pq := [], cycle := 0, wasRead := false, holdVal := 0, holdValid := false
             irqLatched := false, acc := (List.replicate s.acc.length 0).set s.cfg.accIrqv 0x00000080
             ch := Bank.fill s.cfg.chanInit
             trace := s.trace ++ .reset :: (List.finRange 32).map fun i => .setMute i (s.muted.get i)
             curPage := 0, chanMax := s.initChanMax }
  (t.enqw s.cfg.regPage 0 allBits 0).pgWriteM 0 s.cfg.pmGlobal s.cfg.regActv
    (s.initChanMax.setWidth 32) allBits 0

end Sys2Proof.Machine
end

