-- ==== Sys2Proof/Machine/Commands.lean ====
section
/-! DEFINITION. The Command Dispatcher's commands (44_command_dispatcher.md). -/

namespace Sys2Proof.Machine

/-- A command that changes its channel and answers 1 (44_command_dispatcher.md R250). -/
def onChannel (ch : Byte) (s : State) (f : Chan → Chan) : Result State :=
  withChannel ch fun i => .next ((s.modChan i f).setCode 1)

/-- How NOTE_ON resolves the sample: index and mapped frequency (44_command_dispatcher.md R252). -/
def resolveSample (ins : Instrument) (note : Int) : Option Nat × Option Rat :=
  if ins.useNoteMap then
    match ins.noteMap.lookup note with
    | some (k, f) => (some k, some f)
    | none => (none, none)
  else (ins.initSample, none)

/-- The channel with the playback region, rate and presets of a valid sample, or with none and the defaults
(44_command_dispatcher.md R252). -/
def assignSample (cfg : Cfg) (st : Stores) (ins : Instrument) (note : Int) (c : Chan) : Chan :=
  let r := resolveSample ins note
  match r.1, r.1.bind (sampleStore st) with
  | some k, some smp =>
    if smp.length = 0 then
      { c with pcm.index := none, filter := cfg.filterDefault, env := cfg.envDefault }
    else
      { c with freqOffs := rateOffset cfg (r.2.getD 8363) smp.centerRate note, pcm := sampleRegion cfg k smp
               filter := ins.filterPreset, env := ins.envPreset }
  | _, _ => { c with pcm.index := none, filter := cfg.filterDefault, env := cfg.envDefault }

/-- The channel after NOTE_ON (44_command_dispatcher.md R252). -/
def noteOnChan (cfg : Cfg) (st : Stores) (note : Int) (c : Chan) : Chan :=
  let ins := insStore st c.ins
  { (assignSample cfg st ins note c).markAll with
      k1Offs := 0, k2Offs := 0, note := note, baseFreq := noteFreq cfg note, active := true, keyOn := true
      cursor := Config.macroInit ins }

/-- The channel after VOLUME (44_command_dispatcher.md R255). -/
def volumeChan (value : Int) (c : Chan) : Chan :=
  let v := clampVol value
  if c.vol ≠ v then { c with vol := v, outVol := fullScale v, volChanged := true } else c

/-- The channel after PANNING (44_command_dispatcher.md R256). -/
def panningChan (value value2 : Int) (c : Chan) : Chan :=
  let l := clampVol value
  let r := clampVol value2
  if c.lVol ≠ l ∨ c.rVol ≠ r then
    { c with lVol := l, rVol := r, outLVol := fullScale l, outRVol := fullScale r, volChanged := true }
  else c

/-- Where one portamento step leaves the base frequency, and whether the target is reached
(44_command_dispatcher.md R258). -/
def portaStep (base speed dest : Int) : Int × Bool :=
  if base < dest then
    if dest ≤ base + speed then (dest, true) else (base + speed, false)
  else if base - speed ≤ dest then (dest, true)
  else (base - speed, false)

/-- NOTE_ON (44_command_dispatcher.md R252), with the store of its step (R251). -/
def execNoteOn (ch : Byte) (note : Word) (s : State) : Result State :=
  onChannel ch s (noteOnChan s.cfg s.stores note.toInt)

/-- NOTE_OFF (44_command_dispatcher.md R253). -/
def execNoteOff (ch : Byte) (s : State) : Result State :=
  onChannel ch s fun c => { c with active := false, keyOff := true }

/-- INSTRUMENT (44_command_dispatcher.md R254). -/
def execInstrument (ch : Byte) (value : Word) (s : State) : Result State :=
  onChannel ch s fun c => { c with ins := value.toNat }

/-- VOLUME (44_command_dispatcher.md R255). -/
def execVolume (ch : Byte) (value : Word) (s : State) : Result State :=
  onChannel ch s (volumeChan value.toInt)

/-- PANNING (44_command_dispatcher.md R256). -/
def execPanning (ch : Byte) (value value2 : Word) (s : State) : Result State :=
  onChannel ch s (panningChan value.toInt value2.toInt)

/-- PITCH (44_command_dispatcher.md R257). -/
def execPitch (ch : Byte) (value : Word) (s : State) : Result State :=
  onChannel ch s fun c => c.setPitch value.toInt

/-- PORTA (44_command_dispatcher.md R258): result 2 when the target is reached. -/
def execPorta (ch : Byte) (value value2 : Word) (s : State) : Result State :=
  withChannel ch fun i =>
    let r := portaStep (s.chan i).baseFreq value.toInt (noteFreq s.cfg value2.toInt)
    .next ((s.modChan i fun c => { c with baseFreq := r.1, freqChanged := true, inPorta := !r.2 }).setCode
      (if r.2 then 2 else 1))

/-- SAMPLE_POS (44_command_dispatcher.md R259): the accumulator write is queued at once. -/
def execSamplePos (ch : Byte) (value : Word) (s : State) : Result State :=
  withChannel ch fun i =>
    let p := (s.chan i).pcm
    .next ((if seekValid p value.toInt then
      s.writeB i s.cfg.regAccum (seekAddr p value.toInt.toNat) else s).setCode 1)

/-- FILTER_MODE (44_command_dispatcher.md R260). -/
def execFilterMode (ch : Byte) (value : Word) (s : State) : Result State :=
  onChannel ch s fun c => c.setFilterMode (value.setWidth 2)

/-- FILTER_K1 (44_command_dispatcher.md R261). -/
def execFilterK1 (ch : Byte) (value : Word) (s : State) : Result State :=
  onChannel ch s fun c => c.setK1 (value.setWidth 16)

/-- FILTER_K2 (44_command_dispatcher.md R262). -/
def execFilterK2 (ch : Byte) (value : Word) (s : State) : Result State :=
  onChannel ch s fun c => c.setK2 (value.setWidth 16)

/-- ENV_COUNT (44_command_dispatcher.md R263). -/
def execEnvCount (ch : Byte) (value : Word) (s : State) : Result State :=
  onChannel ch s fun c => c.setEcount (value.setWidth 16)

/-- ENV_LVRAMP (44_command_dispatcher.md R264). -/
def execEnvLvramp (ch : Byte) (value : Word) (s : State) : Result State :=
  onChannel ch s fun c => c.setLVRamp (value.setWidth 8)

/-- ENV_RVRAMP (44_command_dispatcher.md R265). -/
def execEnvRvramp (ch : Byte) (value : Word) (s : State) : Result State :=
  onChannel ch s fun c => c.setRVRamp (value.setWidth 8)

/-- ENV_K1RAMP (44_command_dispatcher.md R266). -/
def execEnvK1ramp (ch : Byte) (value value2 : Word) (s : State) : Result State :=
  onChannel ch s fun c => (c.setK1Ramp (value.setWidth 8)).setK1Slow (boolOfWord value2)

/-- ENV_K2RAMP (44_command_dispatcher.md R267). -/
def execEnvK2ramp (ch : Byte) (value value2 : Word) (s : State) : Result State :=
  onChannel ch s fun c => (c.setK2Ramp (value.setWidth 8)).setK2Slow (boolOfWord value2)

/-- NOP_CMD (44_command_dispatcher.md R268): the channel is not examined; result 1. -/
def execNopCmd (_cmd : Cmd) (s : State) : Result State := .next (s.setCode 1)

end Sys2Proof.Machine
end

