-- ==== Sys2Proof/Machine/Sequencer.lean ====
section
/-! DEFINITION. The Clock-Edge Sequencer: the EDGE step, its service phase and its six bus-phase cases, the two
physical transactions, and the interrupt assertion (41_edge_sequencer.md, 60_exceptions.md R323). -/

namespace Sys2Proof.Machine

/-- The six cases of the bus phase (41_edge_sequencer.md R150). -/
inductive BusCase where
  | busy
  | idle
  | rd
  | wfull
  | wstage
  | wcommit
  deriving DecidableEq, Repr

/-- The selector word S of 30_encoding.md R108, its bits that do not apply 0. -/
def State.selector (s : State) : BitVec 5 :=
  let front := s.pq.head?
  BitVec.ofBool (decide (0 < s.cycle)) ++ BitVec.ofBool s.pq.isEmpty ++
    BitVec.ofBool (front.any fun w => isReadOf w.payload) ++
    BitVec.ofBool (front.any fun w => byteMask w == 0xFF) ++ BitVec.ofBool s.holdValid

/-- Which case the bus phase takes (41_edge_sequencer.md R150). -/
def State.busCase (s : State) : BusCase :=
  if 0 < s.cycle then .busy
  else
    match s.pq with
    | [] => .idle
    | w :: _ =>
      match w.payload with
      | .read _ => .rd
      | .write _ =>
        if byteMask w = 0xFF then .wfull
        else if s.holdValid then .wcommit
        else .wstage

/-- EDGE.BUSY (41_edge_sequencer.md R152). -/
def State.edgeBusy (s : State) : State := { s with cycle := s.cycle - 1 }

/-- EDGE.RD on the front transaction (41_edge_sequencer.md R153). -/
def State.edgeRd (s : State) : State :=
  match s.pq with
  | w :: _ =>
    match w.payload with
    | .read d =>
      let b := s.hostByte (ptAddr w)
      let t := s.memRead (ptAddr w) b
      { t with acc := t.acc.set d (mergeRead (t.acc.getD d 0) w.mask w.step b)
               wasRead := if w.step = 3 then true else t.wasRead }.finishByte w
    | .write _ => s
  | [] => s

/-- EDGE.WFULL on the front transaction (41_edge_sequencer.md R155). -/
def State.edgeWfull (s : State) : State :=
  match s.pq with
  | w :: _ =>
    match w.payload with
    | .write v => { s.commit (ptAddr w) (byteOf v w.step) with holdValid := false }.finishByte w
    | .read _ => s
  | [] => s

/-- EDGE.WSTAGE on the front transaction (41_edge_sequencer.md R156). -/
def State.edgeWstage (s : State) : State :=
  match s.pq with
  | w :: _ =>
    match w.payload with
    | .write v =>
      let b := s.hostByte (ptAddr w)
      { s.memRead (ptAddr w) b with holdVal := mergeByte (byteOf v w.step) b (byteMask w)
                                    holdValid := true }
    | .read _ => s
  | [] => s

/-- EDGE.WCOMMIT on the front transaction (41_edge_sequencer.md R157). -/
def State.edgeWcommit (s : State) : State :=
  match s.pq with
  | w :: _ => { s.commit (ptAddr w) s.holdVal with holdValid := false }.finishByte w
  | [] => s

/-- One case of the bus phase carried out. EDGE.IDLE does nothing (41_edge_sequencer.md R154). -/
def State.runCase (s : State) (c : BusCase) : State :=
  match c with
  | .busy => s.edgeBusy
  | .idle => s
  | .rd => s.edgeRd
  | .wfull => s.edgeWfull
  | .wstage => s.edgeWstage
  | .wcommit => s.edgeWcommit

/-- One edge has passed (00_scope.md R16; log 19). -/
def State.countEdge (s : State) : State := { s with edgeNo := s.edgeNo + 1 }

/-- The bus phase: exactly the case selected (41_edge_sequencer.md R150). -/
def State.busPhase (s : State) : State := (s.runCase s.busCase).countEdge

/-- One case, where the state selects it; elsewhere it is not performed (log 4). -/
def State.selectedCase (s : State) (c : BusCase) : State :=
  if s.busCase = c then s.busPhase else s

/-- EDGE: the service phase, then the bus phase (41_edge_sequencer.md R150). -/
def State.edgeStep (s : State) : State := s.irqService.busPhase

/-- EDGE (41_edge_sequencer.md R150). -/
def execEdge (s : State) : Result State := .next s.edgeStep

/-- EDGE.SVC (41_edge_sequencer.md R151). -/
def execEdgeSvc (s : State) : Result State := .next s.irqService

/-- EDGE.BUSY (41_edge_sequencer.md R152). -/
def execEdgeBusy (s : State) : Result State := .next (s.selectedCase .busy)

/-- EDGE.IDLE (41_edge_sequencer.md R154). -/
def execEdgeIdle (s : State) : Result State := .next (s.selectedCase .idle)

/-- EDGE.RD (41_edge_sequencer.md R153). -/
def execEdgeRd (s : State) : Result State := .next (s.selectedCase .rd)

/-- EDGE.WFULL (41_edge_sequencer.md R155). -/
def execEdgeWfull (s : State) : Result State := .next (s.selectedCase .wfull)

/-- EDGE.WSTAGE (41_edge_sequencer.md R156). -/
def execEdgeWstage (s : State) : Result State := .next (s.selectedCase .wstage)

/-- EDGE.WCOMMIT (41_edge_sequencer.md R157). -/
def execEdgeWcommit (s : State) : Result State := .next (s.selectedCase .wcommit)

/-- BWR: the physical write takes its place at the back of PQ, and the sequencer takes one bus phase
(41_edge_sequencer.md R155 to R157; log 5). The delay of a step 0 to 2 is kept in PQ and never loaded
(30_encoding.md R102; DESIGN CHOICE, log 27). -/
def execBwr (step : BitVec 2) (address : BitVec 4) (value mask delay : Word) (s : State) : Result State :=
  .next (s.pushPQ { payload := .write value, step := step, address := address, mask := mask
                    delay := delay }).busPhase

/-- BRD: as BWR, for a read into an accumulator that exists (41_edge_sequencer.md R153; log 5). The delay of a step 0 to 2
is kept in PQ and never loaded (30_encoding.md R102; DESIGN CHOICE, log 27). -/
def execBrd (step : BitVec 2) (address : BitVec 4) (dest mask delay : Word) (s : State) : Result State :=
  withAccumulator s dest fun d =>
    .next (s.pushPQ { payload := .read d, step := step, address := address, mask := mask
                      delay := delay }).busPhase

/-- IRQ_ASSERT (60_exceptions.md R323). -/
def execIrqAssert (s : State) : Result State := .next s.irqAssert

end Sys2Proof.Machine
end

