-- ==== Sys2Proof/Machine/Translator.lean ====
section
/-! DEFINITION. The Channel Register Translator: steps 1 to 5 of a channel and the pass over the channels
(42_channel_translator.md, 43_keyon_keyoff.md). -/

namespace Sys2Proof.Machine

/-! ### Step 1: the macro results -/

/-- Volume, pan, arpeggio, pitch, phase-reset and filter-mode macros (42_channel_translator.md R183 to R188). -/
def applyPlainMacros (cfg : Cfg) (m : MacroIn) (c : Chan) : Chan :=
  let c := if m.vol.had then c.setOutVol (volMacroApply cfg c.vol m.vol.val) else c
  let c := if m.panL.had then c.setOutLVol (panMacroApply cfg c.lVol m.panL.val) else c
  let c := if m.panR.had then c.setOutRVol (panMacroApply cfg c.rVol m.panR.val) else c
  let c := if m.arp.had then c.setBaseFreq (noteFreq cfg (arpNote cfg c.note m.arp.val m.arp.mode)) else c
  let c := if m.pitch.had then
      c.setPitch2 (if m.pitch.mode = 1 then c.pitch2 + m.pitch.val else m.pitch.val) else c
  let c := if m.phaseReset.had && decide (m.phaseReset.val = 1) then { c with keyOn := true } else c
  if m.duty.had then c.setFilterMode (BitVec.ofInt 2 m.duty.val) else c

/-- The k1 slot, `ex1` (42_channel_translator.md R189). -/
def applyK1Macro (m : MacroIn) (c : Chan) : Chan :=
  if m.ex1.had then
    if m.ex1.mode = 0 then (c.setK1Offs m.ex1.val).setK1 (clampHalf m.ex1.val)
    else if m.ex1.mode = 1 then c.setK1 (clampHalf m.ex1.val)
    else if m.ex1.mode = 2 then c.setK1 (clampHalf (c.filter.k1.toNat + m.ex1.val))
    else c
  else c

/-- The k2 slot, `ex2`; its relative mode captures the offset from `ex1`'s value
(42_channel_translator.md R189, 93_implementation_defined.md U8). -/
def applyK2Macro (m : MacroIn) (c : Chan) : Chan :=
  if m.ex2.had then
    if m.ex2.mode = 0 then (c.setK2Offs m.ex1.val).setK2 (clampHalf m.ex2.val)
    else if m.ex2.mode = 1 then c.setK2 (clampHalf m.ex2.val)
    else if m.ex2.mode = 2 then c.setK2 (clampHalf (c.filter.k2.toNat + m.ex2.val))
    else c
  else c

/-- The envelope slots (42_channel_translator.md R191). -/
def applyEnvMacros (cfg : Cfg) (m : MacroIn) (c : Chan) : Chan :=
  (envMacroMap cfg m.ex3 m.ex4).foldl Chan.applyEnv c

/-- Step 1 on one channel's state (42_channel_translator.md R182). -/
def applyMacros (cfg : Cfg) (m : MacroIn) (c : Chan) : Chan :=
  applyEnvMacros cfg m (applyK2Macro m (applyK1Macro m (applyPlainMacros cfg m c)))

/-- T.MACRO. -/
def State.tMacro (s : State) (i : ChIx) (m : MacroIn) : State := s.modChan i (applyMacros s.cfg m)

/-! ### Steps 2 to 4: volume, filter, envelope -/

/-- The resultant volumes of a channel (42_channel_translator.md R190). -/
def resultants (muted : Bool) (c : Chan) : Half × Half :=
  if muted then (0, 0) else (resultantVol c.outVol c.outLVol, resultantVol c.outVol c.outRVol)

/-- T.VOL (42_channel_translator.md R190). -/
def State.tVol (s : State) (i : ChIx) : State :=
  let c := s.chan i
  if c.volChanged then
    let lr := resultants (s.muted.get i) c
    let t := s.setChan i { c with resLVol := lr.1, resRVol := lr.2, volChanged := false }
    if c.keyOn then t
    else (t.writeA i s.cfg.regLvol (lr.1.setWidth 32)).writeA i s.cfg.regRvol (lr.2.setWidth 32)
  else s

/-- T.FILT (42_channel_translator.md R192): mode, then k2, then k1. -/
def State.tFilt (s : State) (i : ChIx) (m : MacroIn) : State :=
  let c := s.chan i
  if c.filterChanged.any then
    let t := s.setChan i { c with filterChanged := FilterFlags.all false }
    if c.keyOn then t
    else
      let t := if c.filterChanged.mode then
          t.writeCr i (inCrField c.filter.mode s.cfg.crLpShift) (crField s.cfg.crLpShift) else t
      let t := if c.filterChanged.k2 then
          t.writeA i s.cfg.regK2 ((effK c.filter.k2 c.k2Offs m.ex2).setWidth 32) else t
      if c.filterChanged.k1 then
        t.writeA i s.cfg.regK1 ((effK c.filter.k1 c.k1Offs m.ex1).setWidth 32) else t
  else s

/-- T.ENV (42_channel_translator.md R194): lVRamp, rVRamp, ecount, k2Ramp, k1Ramp. -/
def State.tEnv (s : State) (i : ChIx) : State :=
  let c := s.chan i
  if c.envChanged.any then
    let t := s.setChan i { c with envChanged := EnvFlags.all false }
    if c.keyOn then t
    else
      let t := if c.envChanged.lVRamp then
          t.writeA i s.cfg.regLvramp (rampWord s.cfg c.env.lVRamp) else t
      let t := if c.envChanged.rVRamp then
          t.writeA i s.cfg.regRvramp (rampWord s.cfg c.env.rVRamp) else t
      let t := if c.envChanged.ecount then
          t.writeA i s.cfg.regEcount (c.env.ecount.setWidth 32) else t
      let t := if c.envChanged.k2Ramp then
          t.writeA i s.cfg.regK2ramp (rampWordK s.cfg c.env.k2Ramp c.env.k2Slow) else t
      if c.envChanged.k1Ramp then
        t.writeA i s.cfg.regK1ramp (rampWordK s.cfg c.env.k1Ramp c.env.k1Slow) else t
  else s

/-! ### Step 5: frequency, key-on, key-off -/

/-- A page-addressed write: page, page mask, register, value, mask, delay (40_bus_queue.md R136). -/
structure PageWrite where
  page : Byte
  pm : Byte
  reg : BitVec 4
  value : Word
  mask : Word
  delay : Word
  deriving DecidableEq, Repr

/-- A register of a page written whole, without delay. -/
def plainWrite (cfg : Cfg) (page : Byte) (reg : BitVec 4) (value : Word) : PageWrite :=
  { page := page, pm := cfg.pmFull, reg := reg, value := value, mask := allBits, delay := 0 }

/-- The control register written under a mask (40_bus_queue.md R138). -/
def crWrite (cfg : Cfg) (i : ChIx) (value mask : Word) : PageWrite :=
  { page := pgA cfg i, pm := cfg.pmCr, reg := cfg.regCr, value := value, mask := mask, delay := 0 }

/-- The nineteen register writes of the key-on sequence, in order (43_keyon_keyoff.md R223 to R234). -/
def keyOnWrites (cfg : Cfg) (chanMax : BitVec 5) (i : ChIx) (m : MacroIn) (c : Chan) : List PageWrite :=
  let a := pgA cfg i
  let b := pgB cfg i
  let oneshot := decide (c.pcm.loopMode = .oneshot)
  [ crWrite cfg i cfg.crWipeout allBits,
    plainWrite cfg a cfg.regEcount 0,
    plainWrite cfg b cfg.regAccum (if c.pcm.reversed then c.pcm.endAddr else c.pcm.start),
    plainWrite cfg a cfg.regK2 0x0000FFFF,
    { plainWrite cfg a cfg.regK1 0x0000FFFF with delay := keyOnDelay chanMax },
    plainWrite cfg a cfg.regFc (c.freq.setWidth 32),
    plainWrite cfg b cfg.regStart (if oneshot then c.pcm.start else c.pcm.loopStart),
    plainWrite cfg b cfg.regEnd (if oneshot then c.pcm.endAddr else c.pcm.loopEnd),
    plainWrite cfg a cfg.regLvramp (rampWord cfg c.env.lVRamp),
    plainWrite cfg a cfg.regRvramp (rampWord cfg c.env.rVRamp),
    plainWrite cfg a cfg.regK2ramp (rampWordK cfg c.env.k2Ramp c.env.k2Slow),
    plainWrite cfg a cfg.regK1ramp (rampWordK cfg c.env.k1Ramp c.env.k1Slow),
    crWrite cfg i (inCrField c.pcm.bank cfg.crBsShift ||| inCrField c.filter.mode cfg.crLpShift)
      (crField cfg.crBsShift ||| crField cfg.crLpShift),
    plainWrite cfg a cfg.regK2 ((effK c.filter.k2 c.k2Offs m.ex2).setWidth 32),
    plainWrite cfg a cfg.regK1 ((effK c.filter.k1 c.k1Offs m.ex1).setWidth 32),
    plainWrite cfg a cfg.regLvol (c.resLVol.setWidth 32),
    plainWrite cfg a cfg.regRvol (c.resRVol.setWidth 32),
    crWrite cfg i (loopCtl cfg c.pcm.loopMode c.pcm.reversed) (crLoopMask cfg),
    plainWrite cfg a cfg.regEcount (c.env.ecount.setWidth 32) ]

/-- Page-addressed writes made in order (40_bus_queue.md R132). -/
def State.pageWrites (s : State) (ws : List PageWrite) : State :=
  ws.foldl (fun t w => t.pgWriteM w.page w.pm w.reg w.value w.mask w.delay) s

/-- The key-on sequence is due: a key-on is pending and a sample is assigned (43_keyon_keyoff.md R234). -/
def Chan.keyOnDue (c : Chan) : Bool := c.keyOn && c.pcm.index.isSome

/-- T.KEYON, where it is due (43_keyon_keyoff.md R234; log 4). -/
def State.tKeyon (s : State) (i : ChIx) (m : MacroIn) : State :=
  let c := s.chan i
  if Chan.keyOnDue c then
    (s.pageWrites (keyOnWrites s.cfg s.chanMax i m c)).modChan i fun x =>
      { x with isReverseLoop := if c.pcm.loopMode = .backward then true else x.isReverseLoop }
  else s

/-- T.KEYOFF, where a key-off is pending (43_keyon_keyoff.md R235; log 4). -/
def State.tKeyoff (s : State) (i : ChIx) : State :=
  if (s.chan i).keyOff then s.writeCr i s.cfg.crWipeout allBits else s

/-- T.FREQW, where no key flag is pending and the channel is active (43_keyon_keyoff.md R236). R220 calls for it only
with freqChanged set; presented alone it is performed with freqChanged clear too, DESIGN CHOICE, log 4. -/
def State.tFreqw (s : State) (i : ChIx) : State :=
  let c := s.chan i
  if !c.keyOn && !c.keyOff && c.active then s.writeA i s.cfg.regFc (c.freq.setWidth 32) else s

/-- T.FREQ (43_keyon_keyoff.md R220). -/
def State.tFreq (s : State) (i : ChIx) (m : MacroIn) : State :=
  let c := s.chan i
  if c.freqChanged || c.keyOn || c.keyOff then
    let t := s.modChan i fun x => { x with freq := effFreq s.cfg x }
    let t := ((t.tKeyon i m).tKeyoff i).tFreqw i
    t.modChan i fun x => { x with keyOn := false, keyOff := false, freqChanged := false }
  else s

/-! ### The pass -/

/-- The five steps of one channel, its macro input taken first (42_channel_translator.md R180). -/
def State.translateChannel (s : State) (isSystemTick : Bool) (i : ChIx) : State :=
  let m := (s.nextMacro i isSystemTick).input
  (((((s.takeMacro i isSystemTick).tMacro i m).tVol i).tFilt i m).tEnv i).tFreq i m

/-- The channels 0..chanMax, ascending (42_channel_translator.md R180). -/
def visitedChannels (chanMax : BitVec 5) : List ChIx :=
  (List.finRange 32).filter fun i => decide (i.val ≤ chanMax.toNat)

/-- TranslatorPass (42_channel_translator.md R180). -/
def State.translatorPass (s : State) (isSystemTick : Bool) : State :=
  (visitedChannels s.chanMax).foldl (fun t i => t.translateChannel isSystemTick i) s

/-! ### The meanings -/

/-- T.MACRO (42_channel_translator.md R182). R182 selects it for every visited channel; presented alone it is performed
on any channel, one above chanMax too, DESIGN CHOICE, log 4. -/
def execTMacro (i : ChIx) (m : MacroIn) (s : State) : Result State := .next (s.tMacro i m)

/-- T.VOL (42_channel_translator.md R190). -/
def execTVol (i : ChIx) (s : State) : Result State := .next (s.tVol i)

/-- T.FILT (42_channel_translator.md R192). -/
def execTFilt (i : ChIx) (m : MacroIn) (s : State) : Result State := .next (s.tFilt i m)

/-- T.ENV (42_channel_translator.md R194). -/
def execTEnv (i : ChIx) (s : State) : Result State := .next (s.tEnv i)

/-- T.FREQ (43_keyon_keyoff.md R220). -/
def execTFreq (i : ChIx) (m : MacroIn) (s : State) : Result State := .next (s.tFreq i m)

/-- T.KEYON (43_keyon_keyoff.md R234). -/
def execTKeyon (i : ChIx) (m : MacroIn) (s : State) : Result State := .next (s.tKeyon i m)

/-- T.KEYOFF (43_keyon_keyoff.md R235). -/
def execTKeyoff (i : ChIx) (s : State) : Result State := .next (s.tKeyoff i)

/-- T.FREQW (43_keyon_keyoff.md R236; with freqChanged clear, DESIGN CHOICE, log 4). -/
def execTFreqw (i : ChIx) (s : State) : Result State := .next (s.tFreqw i)

end Sys2Proof.Machine
end

