-- ==== Sys2Proof/Machine/Facade.lean ====
section
/-! DEFINITION. The Device Facade: the thirteen host operations (45_device_facade.md). -/

namespace Sys2Proof.Machine

/-- One event of a device tick: an edge, or an interrupt assertion (45_device_facade.md R295). -/
def State.devEvent (s : State) (e : DevEvent) : State :=
  match e with
  | .risingEdge => s.edgeStep
  | .irq => s.irqAssert

/-- One sample, written at buffer index `k`: expand, one device tick with its events in order, one stereo
readout (45_device_facade.md R295). -/
def State.sample (s : State) (k : Nat) : State :=
  let t := s.expand
  let d := t.nextTick
  let u := d.events.foldl State.devEvent t.takeTick
  { u with samples := u.samples ++ [{ index := k, left := outSample d.left, right := outSample d.right }] }

/-- `n` samples from buffer index `k` on, ascending. -/
def State.generateFrom (s : State) (k : Nat) : Nat → State
  | 0 => s
  | n + 1 => (s.sample k).generateFrom (k + 1) n

/-- Every channel's dirty flags set (45_device_facade.md R304). -/
def State.resyncOp (s : State) : State := { s with ch := s.ch.map Chan.markAll }

/-- SETCHAN (45_device_facade.md R302). -/
def State.setChannels (s : State) (n : BitVec 5) : State :=
  { s with initChanMax := n, chanMax := n }.pgWriteM 0 s.cfg.pmGlobal s.cfg.regActv (n.setWidth 32) allBits 0

/-- The snapshot buffer: page, register, byte, most significant first (45_device_facade.md R307). -/
def State.snapshotBytes (s : State) : List Byte :=
  (List.range 128).flatMap fun page => (List.range 16).flatMap fun reg => wordBytes (s.regsRead page reg)

/-- The raw writes of a batch, in list order (45_device_facade.md R306). -/
def State.rawWrites (s : State) (ps : List (Word × Word)) : State :=
  ps.foldl (fun t p => t.enqw (p.1.setWidth 4) p.2 allBits 0) s

/-- RESET (45_device_facade.md R290). -/
def execReset (s : State) : Result State := .next s.resetOp

/-- GENERATE (45_device_facade.md R295). -/
def execGenerate (startOffset length : Word) (s : State) : Result State :=
  .next ({ s with samples := [] }.generateFrom startOffset.toNat length.toNat)

/-- TICK (45_device_facade.md R300). -/
def execTick (isSystemTick : Bool) (s : State) : Result State := .next (s.translatorPass isSystemTick)

/-- DISPATCH: the command its kind selects (45_device_facade.md R301, 30_encoding.md R106). -/
def execDispatch (c : Cmd) (s : State) : Result State :=
  match c.kind.toNat with
  | 0x01 => execNoteOn c.channel c.value s
  | 0x02 => execNoteOff c.channel s
  | 0x03 => execInstrument c.channel c.value s
  | 0x04 => execVolume c.channel c.value s
  | 0x05 => execPanning c.channel c.value c.value2 s
  | 0x06 => execPitch c.channel c.value s
  | 0x07 => execPorta c.channel c.value c.value2 s
  | 0x08 => execSamplePos c.channel c.value s
  | 0x10 => execFilterMode c.channel c.value s
  | 0x11 => execFilterK1 c.channel c.value s
  | 0x12 => execFilterK2 c.channel c.value s
  | 0x18 => execEnvCount c.channel c.value s
  | 0x19 => execEnvLvramp c.channel c.value s
  | 0x1A => execEnvRvramp c.channel c.value s
  | 0x1B => execEnvK1ramp c.channel c.value c.value2 s
  | 0x1C => execEnvK2ramp c.channel c.value c.value2 s
  | _ => execNopCmd c s

/-- SETCHAN (45_device_facade.md R302): bits 4:0 of the operand. -/
def execSetchan (n : Word) (s : State) : Result State := .next (s.setChannels (n.setWidth 5))

/-- MUTE (45_device_facade.md R303). -/
def execMute (index : Word) (b : Bool) (s : State) : Result State :=
  if h : index.toNat < 32 then
    .next ({ s with muted := s.muted.set ⟨index.toNat, h⟩ b }.note (.setMute ⟨index.toNat, h⟩ b))
  else .refused .channelOutOfRange

/-- RESYNC (45_device_facade.md R304). -/
def execResync (s : State) : Result State := .next s.resyncOp

/-- RAWWRITE (45_device_facade.md R305). -/
def execRawwrite (addr value : Word) (s : State) : Result State :=
  withAddress addr fun a => .next (s.enqw a value allBits 0)

/-- RAWBATCH (45_device_facade.md R306): refused whole if any address is above 15. -/
def execRawbatch (pairs : List (Word × Word)) (s : State) : Result State :=
  if pairs.all fun p => decide (p.1.toNat ≤ 15) then .next (s.rawWrites pairs)
  else .refused .addressOutOfRange

/-- SNAPSHOT (45_device_facade.md R307). Nothing but the buffer is written, in the block or in the device
(20_memory.md R78, 60_exceptions.md R333). -/
def execSnapshot (s : State) : Result State :=
  .next { s with snapshot := s.snapshotBytes }

/-- EFFECTNAME (45_device_facade.md R308). -/
def execEffectname (code : Word) (s : State) : Result State :=
  .next { s with effectName := effectNameTable s.cfg code.toNat }

/-- SETSKIP (45_device_facade.md R309). -/
def execSetskip (b : Bool) (s : State) : Result State := .next { s with skipWrites := b }

/-- SETLOG (45_device_facade.md R309). -/
def execSetlog (b : Bool) (s : State) : Result State := .next { s with logEnable := b }

end Sys2Proof.Machine
end

