-- ==== Sys2Proof/Machine/Queue.lean ====
section
/-! DEFINITION. The Bus Transaction Queue: ENQW, ENQR, EXPAND, the page helpers, and the two logical
transactions (40_bus_queue.md). -/

namespace Sys2Proof.Machine

/-- ENQW (40_bus_queue.md R130). -/
def execEnqw (addr value mask delay : Word) (s : State) : Result State :=
  withAddress addr fun a => .next (s.enqw a value mask delay)

/-- ENQR (40_bus_queue.md R131): the address is examined first, then the accumulator. -/
def execEnqr (addr dest mask delay : Word) (s : State) : Result State :=
  withAddress addr fun a => withAccumulator s dest fun d => .next (s.enqr a d mask delay)

/-- EXPAND (40_bus_queue.md R134). -/
def execExpand (s : State) : Result State := .next s.expand

/-- PAGESEL (40_bus_queue.md R135). -/
def execPagesel (p : Word) (pm : Byte) (s : State) : Result State :=
  withPage p fun q => .next (s.pageSel q pm)

/-- PGWRITEM (40_bus_queue.md R136): PAGESEL, then ENQW. -/
def execPgwritem (p : Word) (pm : Byte) (r v m d : Word) (s : State) : Result State :=
  withPage p fun q => withAddress r fun a => .next (s.pgWriteM q pm a v m d)

/-- PGWRITE (40_bus_queue.md R137): PGWRITEM under the full page mask. -/
def execPgwrite (p r v m d : Word) (s : State) : Result State :=
  withPage p fun q => withAddress r fun a => .next (s.pgWrite q a v m d)

/-- LWRITE (40_bus_queue.md R133): the transaction takes its place at the back of LQ and becomes the four
physical transactions EXPAND makes of it (log 5). -/
def execLwrite (address : BitVec 4) (value mask delay : Word) (s : State) : Result State :=
  .next (s.pushLQ { payload := .write value, address := address, mask := mask, delay := delay }).expand

/-- LREAD (40_bus_queue.md R133): as LWRITE, for a read into an accumulator that exists (log 5). -/
def execLread (address : BitVec 4) (dest mask delay : Word) (s : State) : Result State :=
  withAccumulator s dest fun d =>
    .next (s.pushLQ { payload := .read d, address := address, mask := mask, delay := delay }).expand

end Sys2Proof.Machine
end

