-- ==== Sys2Proof/Machine/Dispatch.lean ====
section
/-! DEFINITION. What each operation does: one arm per row of spec/opcode_table.json. -/

namespace Sys2Proof.Machine

def exec (i : Instr) (s : State) : Host.Outcome State Fault Refusal :=
  match i with
  | .reset => Sys2Proof.Machine.execReset s
  | .generate startOffset length => Sys2Proof.Machine.execGenerate startOffset length s
  | .tick isSystemTick => Sys2Proof.Machine.execTick isSystemTick s
  | .dispatch cmd => Sys2Proof.Machine.execDispatch cmd s
  | .setchan n => Sys2Proof.Machine.execSetchan n s
  | .mute index b => Sys2Proof.Machine.execMute index b s
  | .resync => Sys2Proof.Machine.execResync s
  | .rawwrite addr value => Sys2Proof.Machine.execRawwrite addr value s
  | .rawbatch pairs => Sys2Proof.Machine.execRawbatch pairs s
  | .snapshot => Sys2Proof.Machine.execSnapshot s
  | .effectname code => Sys2Proof.Machine.execEffectname code s
  | .setskip b => Sys2Proof.Machine.execSetskip b s
  | .setlog b => Sys2Proof.Machine.execSetlog b s
  | .noteOn ch note => Sys2Proof.Machine.execNoteOn ch note s
  | .noteOff ch => Sys2Proof.Machine.execNoteOff ch s
  | .instrument ch value => Sys2Proof.Machine.execInstrument ch value s
  | .volume ch value => Sys2Proof.Machine.execVolume ch value s
  | .panning ch value value2 => Sys2Proof.Machine.execPanning ch value value2 s
  | .pitch ch value => Sys2Proof.Machine.execPitch ch value s
  | .porta ch value value2 => Sys2Proof.Machine.execPorta ch value value2 s
  | .samplePos ch value => Sys2Proof.Machine.execSamplePos ch value s
  | .filterMode ch value => Sys2Proof.Machine.execFilterMode ch value s
  | .filterK1 ch value => Sys2Proof.Machine.execFilterK1 ch value s
  | .filterK2 ch value => Sys2Proof.Machine.execFilterK2 ch value s
  | .envCount ch value => Sys2Proof.Machine.execEnvCount ch value s
  | .envLvramp ch value => Sys2Proof.Machine.execEnvLvramp ch value s
  | .envRvramp ch value => Sys2Proof.Machine.execEnvRvramp ch value s
  | .envK1ramp ch value value2 => Sys2Proof.Machine.execEnvK1ramp ch value value2 s
  | .envK2ramp ch value value2 => Sys2Proof.Machine.execEnvK2ramp ch value value2 s
  | .nopCmd cmd => Sys2Proof.Machine.execNopCmd cmd s
  | .lwrite address value mask delay => Sys2Proof.Machine.execLwrite address value mask delay s
  | .lread address dest mask delay => Sys2Proof.Machine.execLread address dest mask delay s
  | .bwr step address value mask delay => Sys2Proof.Machine.execBwr step address value mask delay s
  | .brd step address dest mask delay => Sys2Proof.Machine.execBrd step address dest mask delay s
  | .edge => Sys2Proof.Machine.execEdge s
  | .edgeSvc => Sys2Proof.Machine.execEdgeSvc s
  | .edgeBusy => Sys2Proof.Machine.execEdgeBusy s
  | .edgeIdle => Sys2Proof.Machine.execEdgeIdle s
  | .edgeRd => Sys2Proof.Machine.execEdgeRd s
  | .edgeWfull => Sys2Proof.Machine.execEdgeWfull s
  | .edgeWstage => Sys2Proof.Machine.execEdgeWstage s
  | .edgeWcommit => Sys2Proof.Machine.execEdgeWcommit s
  | .tMacro k m => Sys2Proof.Machine.execTMacro k m s
  | .tVol k => Sys2Proof.Machine.execTVol k s
  | .tFilt k m => Sys2Proof.Machine.execTFilt k m s
  | .tEnv k => Sys2Proof.Machine.execTEnv k s
  | .tFreq k m => Sys2Proof.Machine.execTFreq k m s
  | .tKeyon k m => Sys2Proof.Machine.execTKeyon k m s
  | .tKeyoff k => Sys2Proof.Machine.execTKeyoff k s
  | .tFreqw k => Sys2Proof.Machine.execTFreqw k s
  | .enqw addr value mask delay => Sys2Proof.Machine.execEnqw addr value mask delay s
  | .enqr addr dest mask delay => Sys2Proof.Machine.execEnqr addr dest mask delay s
  | .expand => Sys2Proof.Machine.execExpand s
  | .pagesel p pm => Sys2Proof.Machine.execPagesel p pm s
  | .pgwritem p pm r v m d => Sys2Proof.Machine.execPgwritem p pm r v m d s
  | .pgwrite p r v m d => Sys2Proof.Machine.execPgwrite p r v m d s
  | .irqAssert => Sys2Proof.Machine.execIrqAssert s

end Sys2Proof.Machine
end

