-- ==== Sys2Proof/Machine/Fetch.lean ====
section
/-! DEFINITION. Where the next operation comes from: the operation port (log 1), and how a word of the opcode table
is placed there. -/

namespace Sys2Proof.Machine

/-- The next operation of the port, decoded, and the state once its record is taken and the store presented with
it is the step's (00_scope.md R13); `none`: the port is empty. -/
def State.fetch (s : State) : Option (Except Reject Instr × State) :=
  match s.port with
  | [] => none
  | p :: rest => some (decode p.record, { s with port := rest, stores := p.stores })

/-- A record placed where the next operation is fetched, with the store as it stands. -/
def State.present (s : State) (r : OpRecord) : State :=
  { s with port := { record := r, stores := s.stores } :: s.port }

/-- A physical transaction of step 0 for a bus-phase case to find at the front of PQ. -/
def frontFor (p : Payload) (mask : Word) : PT :=
  { payload := p, step := 0, address := 0, mask := mask, delay := 0 }

/-- The state in which a bus-phase case is the one selected; any other operation needs nothing
(30_encoding.md R108). -/
def State.selecting (s : State) (i : Instr) : State :=
  match i with
  | .edgeBusy => { s with cycle := 1 }
  | .edgeIdle => { s with cycle := 0, pq := [] }
  | .edgeRd => { s with cycle := 0, pq := [frontFor (.read 0) allBits] }
  | .edgeWfull => { s with cycle := 0, pq := [frontFor (.write 0) allBits] }
  | .edgeWstage => { s with cycle := 0, pq := [frontFor (.write 0) 0], holdValid := false }
  | .edgeWcommit => { s with cycle := 0, pq := [frontFor (.write 0) 0], holdValid := true }
  | _ => s

/-- The record of a word of the opcode table at the port, and the selection its operation needs (log 3). -/
def State.placeWord (s : State) (nbits w : Nat) : State :=
  let r := tableRecord nbits w
  match decode r with
  | .ok i => (s.selecting i).present r
  | .error _ => s.present r

end Sys2Proof.Machine
end

