-- ==== Sys2Proof/Machine/Step.lean ====
section
/-! DEFINITION. One step: the next operation of the port is taken, decoded and run whole. -/

namespace Sys2Proof.Machine

/-- One step (00_scope.md R9, log 1). With nothing presented, nothing happens (log 16). -/
def step (s : State) : Host.Outcome State Fault Refusal :=
  match s.fetch with
  | none => .next s
  | some (.ok i, t) => exec i t
  | some (.error why, _) => .refused (.noOperation why)

/-- The instruction of a word of the opcode table stored where `step` fetches its next instruction. -/
def State.withFetchWord (s : State) (nbits w : Nat) : State := s.placeWord nbits w

end Sys2Proof.Machine
end

