-- ==== Sys2Proof/Safety.lean ====
section
/-! DEFINITION. What a well-kept state is: the properties the spec says every run keeps. -/

namespace Sys2Proof.Machine

/-- Something is staged only for the write byte at the front of PQ, whose byte mask is partial, while the bus is
not busy (41_edge_sequencer.md R159). -/
def State.holdInv (s : State) : Prop :=
  s.holdValid = true →
    s.cycle = 0 ∧ ∃ w rest v, s.pq = w :: rest ∧ w.payload = .write v ∧ byteMask w ≠ 0xFF

/-- Every read in the queues names an accumulator (40_bus_queue.md R131). -/
def State.destInv (s : State) : Prop :=
  (∀ w ∈ s.lq, ∀ d, w.payload = .read d → d < s.acc.length) ∧
    ∀ w ∈ s.pq, ∀ d, w.payload = .read d → d < s.acc.length

/-- The configuration is admissible: the vector's accumulator exists (00_scope.md R8), and ChanInit has every
dirty and pending flag clear (10_state.md R40). -/
def State.cfgInv (s : State) : Prop :=
  s.cfg.accIrqv < s.acc.length ∧ s.cfg.chanInit.volChanged = false ∧ s.cfg.chanInit.freqChanged = false ∧
    s.cfg.chanInit.filterChanged = FilterFlags.all false ∧ s.cfg.chanInit.envChanged = EnvFlags.all false ∧
    s.cfg.chanInit.keyOn = false ∧ s.cfg.chanInit.keyOff = false ∧ s.cfg.chanInit.isReverseLoop = false

/-- The invariant of the machine: the holding register (R159), the shadow page's bit 7 clear (10_state.md R34),
the pool in canonical form with every address in range (20_memory.md R70), reads naming accumulators, the
configuration admissible. -/
def State.inv (s : State) : Prop :=
  s.holdInv ∧ s.curPage.toNat ≤ 127 ∧ Memory.wf s.pool = true ∧ (∀ c ∈ s.pool, c.1 < 8192) ∧ s.destInv ∧
    s.cfgInv

/-- All queued work has reached the device (70_reset_and_hazards.md R366). -/
def State.drained (s : State) : Prop := s.lq = [] ∧ s.pq = [] ∧ s.cycle = 0 ∧ s.holdValid = false

/-- A run is safe when each of its steps answers a next state: no operation was refused. -/
def safeRun (k : Nat) (s : State) : Prop := ∃ t, Host.Core.run Sys2Proof.core k s = .next t

/-! ### Vocabulary of the statements -/

/-- Operations run one after another, as the rules list them (40_bus_queue.md R132). -/
def runAll : List Instr → State → Result State
  | [], s => .next s
  | i :: rest, s =>
    match exec i s with
    | .next t => runAll rest t
    | .fault r => .fault r
    | .refused r => .refused r

/-- The operation that performs a case of the bus phase. -/
def BusCase.instr (c : BusCase) : Instr :=
  match c with
  | .busy => .edgeBusy
  | .idle => .edgeIdle
  | .rd => .edgeRd
  | .wfull => .edgeWfull
  | .wstage => .edgeWstage
  | .wcommit => .edgeWcommit

/-- The operation that handles an event of a device tick (45_device_facade.md R295). -/
def eventInstr (e : DevEvent) : Instr :=
  match e with
  | .risingEdge => .edge
  | .irq => .irqAssert

/-- `PGWRITE(page, reg, value)` with mask ALL and delay 0. -/
def regWrite (page : Byte) (reg : BitVec 4) (value : Word) : Instr :=
  .pgwrite (page.setWidth 32) (reg.setWidth 32) value allBits 0

/-- `PGWRITEM(PG_A(i), PM_CR, REG_CR, value, mask, 0)`. -/
def crFieldWrite (cfg : Cfg) (i : ChIx) (value mask : Word) : Instr :=
  .pgwritem ((pgA cfg i).setWidth 32) cfg.pmCr (cfg.regCr.setWidth 32) value mask 0

/-- Everything on its way to the bus, in order (20_memory.md R82): PQ, then what EXPAND will make of LQ. -/
def State.backlog (s : State) : List PT := s.pq ++ s.lq.flatMap expandLT

/-- The byte writes among calls of the device, as the write log holds them (41_edge_sequencer.md R161). -/
def busWrites (calls : List DevCall) : List (Byte × Byte) :=
  calls.filterMap fun c =>
    match c with
    | .bus b => if b.write then some (b.addr.setWidth 8, b.data) else none
    | _ => none

/-- The byte accesses a physical transaction makes, in order, each with whether it writes: one, or for a partial
write byte a read and then a write of the same address (20_memory.md R82). -/
def accessesOf (w : PT) : List (Bool × BitVec 6) :=
  match w.payload with
  | .read _ => [(false, ptAddr w)]
  | .write _ => if byteMask w = 0xFF then [(true, ptAddr w)] else [(false, ptAddr w), (true, ptAddr w)]

/-- The byte accesses among calls of the device, each with whether it writes. -/
def busAccesses (calls : List DevCall) : List (Bool × BitVec 6) :=
  calls.filterMap fun c =>
    match c with
    | .bus b => some (b.write, b.addr)
    | _ => none

/-- The access already made for a transaction that is still at the front of PQ: the read of a staged byte
(41_edge_sequencer.md R156). -/
def State.staged (s : State) : List (Bool × BitVec 6) :=
  if s.holdValid then s.pq.head?.toList.map fun w => (false, ptAddr w) else []

/-- How many of the four bytes of a mask are partial (41_edge_sequencer.md R158). -/
def partialBytes (mask : Word) : Nat := (wordBytes mask).countP fun b => b != 0xFF

/-- Every dirty flag of a channel clear. -/
def Chan.clearDirty (c : Chan) : Chan :=
  { c with volChanged := false, freqChanged := false, filterChanged := FilterFlags.all false
           envChanged := EnvFlags.all false }

/-- Every dirty flag and both key flags of a channel are clear (43_keyon_keyoff.md R237). -/
def flagsClear (c : Chan) : Prop :=
  c.volChanged = false ∧ c.freqChanged = false ∧ c.filterChanged = FilterFlags.all false ∧
    c.envChanged = EnvFlags.all false ∧ c.keyOn = false ∧ c.keyOff = false

/-- The five steps of a channel (42_channel_translator.md R180). -/
def channelSteps (i : ChIx) (m : MacroIn) : List Instr :=
  [.tMacro i m, .tVol i, .tFilt i m, .tEnv i, .tFreq i m]

/-- The steps of each of some channels in turn, each with the macro input that the macro engine, handed
isSystemTick, delivers for the channel (42_channel_translator.md R180, R181, 45_device_facade.md R300). -/
def passSteps (isSystemTick : Bool) : List ChIx → State → Result State
  | [], s => .next s
  | i :: rest, s =>
    match runAll (channelSteps i (s.nextMacro i isSystemTick).input) (s.takeMacro i isSystemTick) with
    | .next t => passSteps isSystemTick rest t
    | .fault r => .fault r
    | .refused r => .refused r

/-- The operands name a channel, an address, a page and an accumulator that exist (60_exceptions.md R321). -/
def operandsInRange (i : Instr) (s : State) : Prop :=
  match i with
  | .mute index _ => index.toNat < 32
  | .rawwrite addr _ => addr.toNat ≤ 15
  | .rawbatch pairs => ∀ p ∈ pairs, p.1.toNat ≤ 15
  | .dispatch cmd => cmd.kind ∈ knownKinds → cmd.channel.toNat < 32
  | .noteOn ch _ | .noteOff ch | .instrument ch _ | .volume ch _ | .panning ch _ _ | .pitch ch _
  | .porta ch _ _ | .samplePos ch _ | .filterMode ch _ | .filterK1 ch _ | .filterK2 ch _ | .envCount ch _
  | .envLvramp ch _ | .envRvramp ch _ | .envK1ramp ch _ _ | .envK2ramp ch _ _ => ch.toNat < 32
  | .lread _ dest _ _ | .brd _ _ dest _ _ => dest.toNat < s.acc.length
  | .enqw addr _ _ _ => addr.toNat ≤ 15
  | .enqr addr dest _ _ => addr.toNat ≤ 15 ∧ dest.toNat < s.acc.length
  | .pagesel p _ => p.toNat ≤ 127
  | .pgwritem p _ r _ _ _ | .pgwrite p r _ _ _ => p.toNat ≤ 127 ∧ r.toNat ≤ 15
  | .reset | .generate _ _ | .tick _ | .setchan _ | .resync | .snapshot | .effectname _ | .setskip _
  | .setlog _ | .nopCmd _ | .lwrite _ _ _ _ | .bwr _ _ _ _ _ | .edge | .edgeSvc | .edgeBusy | .edgeIdle
  | .edgeRd | .edgeWfull | .edgeWstage | .edgeWcommit | .tMacro _ _ | .tVol _ | .tFilt _ _ | .tEnv _
  | .tFreq _ _ | .tKeyon _ _ | .tKeyoff _ | .tFreqw _ | .expand | .irqAssert => True

end Sys2Proof.Machine
end

