-- ==== Sys2Proof/Certificates/Slice0/Obligations.lean ====
section
/-! DEFINITION. The statements for the provers, family by family. Each docstring names the rule it states, or the
sections and the log entry it rests on. -/

section

open Sys2Proof Sys2Proof.Machine

/-! ### Encoding -/

/-- Decoding what the encoder writes gives the operation back, every operand at every value the encoding admits
(30_encoding.md R102 to R108; log 2 for the rows without a bit pattern, log 27 for the delay of BWR and BRD). -/
def Obligations.DecodeOfEncodeIsIdentity : Prop :=
  ∀ i : Instr, i.wf = true → decode (encode i) = .ok i

/-- Whatever record is decoded, the operation read from it is well-formed. -/
def Obligations.DecodedIsWellFormed : Prop :=
  ∀ (r : OpRecord) (i : Instr), decode r = .ok i → i.wf = true

/-- 30_encoding.md R102, the packed layout: which field each bit of a 120-bit word belongs to, and which words
are no transaction. THE MODEL'S CHOICE (log 27): a word of step 0 to 2 with a delay is read as it stands. -/
def Obligations.TransactionWords : Prop :=
  ∀ w : Nat, w < 2 ^ 120 →
    let isRead := w / 2 ^ 112 % 2
    let state := w / 2 ^ 104 % 256
    let address := w / 2 ^ 96 % 256
    let a := BitVec.ofNat 4 address
    let payload := BitVec.ofNat 32 (w / 2 ^ 64)
    let mask := BitVec.ofNat 32 (w / 2 ^ 32)
    let delay := BitVec.ofNat 32 w
    (w / 2 ^ 113 ≠ 0 ∨ 4 < state ∨ 0x0F < address → decodeTableWord 120 w = none) ∧
    (w / 2 ^ 113 = 0 → state ≤ 4 → address ≤ 0x0F →
      decodeTableWord 120 w = some
        (if state = 4 then
          (if isRead = 0 then .lwrite a payload mask delay else .lread a payload mask delay)
        else if isRead = 0 then .bwr (BitVec.ofNat 2 state) a payload mask delay
        else .brd (BitVec.ofNat 2 state) a payload mask delay))

/-- Words written out in 95_test_vectors.md V1, V3, V4, V37, V39, V44, V45, V46 and V54 decode to what stands
beside them. -/
def Obligations.SpecWordsDecode : Prop :=
  decodeTableWord 120 0x00040100012345FFFFFFFF00000000 = some (.lwrite 0x1 0x00012345 allBits 0) ∧
  decodeTableWord 120 0x01040E000000000000009F00000000 = some (.lread 0xE 0 0x0000009F 0) ∧
  decodeTableWord 120 0x00030112345678FFFFFFFF00000005 = some (.bwr 3 0x1 0x12345678 allBits 5) ∧
  decodeTableWord 80 0x04000000008000000000 = some (.volume 0 128) ∧
  decodeTableWord 80 0x0500000000FF00000080 = some (.panning 0 255 128) ∧
  decodeTableWord 80 0xFF630000000100000002 =
    some (.nopCmd { kind := 0xFF, channel := 0x63, value := 1, value2 := 2 }) ∧
  decodeTableWord 80 0x1B01FFFFFFFE00000001 = some (.envK1ramp 1 0xFFFFFFFE 1) ∧
  decodeTableWord 80 0x01000000003000000000 = some (.noteOn 0 48) ∧
  decodeTableWord 80 0x0702000000040000003C = some (.porta 2 4 60) ∧
  decodeTableWord 8 0x00 = some .reset ∧
  decode ⟨.hop, [0x01, 0, 0, 0, 0, 0, 0, 0, 1]⟩ = .ok (.generate 0 1) ∧
  decode ⟨.hop, [0x07, 0, 0, 0, 1, 0x12, 0x34, 0x56, 0x78]⟩ = .ok (.rawwrite 0x1 0x12345678) ∧
  decode ⟨.hop, [0x03, 0x01, 0, 0, 0, 0, 0x30, 0, 0, 0, 0]⟩ =
    .ok (.dispatch { kind := 1, channel := 0, value := 48, value2 := 0 }) ∧
  decodeTableWord 5 0b10000 = some .edgeBusy ∧ decodeTableWord 5 0b00001 = some .edgeWcommit

/-- The selector word of 30_encoding.md R108, computed from a state, decodes to the one bus-phase case that the
state selects. -/
def Obligations.SelectorNamesTheCase : Prop :=
  ∀ s : State, decode ⟨.edge, [s.selector.setWidth 8]⟩ = .ok s.busCase.instr

/-! ### The machine -/

/-- One step takes the record at the front of the operation port and runs the operation it decodes to, the port
moved past it, with the store presented for this step (00_scope.md R13); a record that is no operation is refused;
with nothing presented nothing happens (log 1, 12, 16). -/
def Obligations.StepRunsFetched : Prop :=
  ∀ (s : State) (p : Presented) (rest : List Presented), s.port = p :: rest →
    (∀ i, decode p.record = .ok i → step s = exec i { s with port := rest, stores := p.stores }) ∧
    (∀ why, decode p.record = .error why → step s = .refused (.noOperation why)) ∧
    step { s with port := [] } = .next { s with port := [] }

/-- 60_exceptions.md R320, R321: an operation completes exactly when its operands name a channel, an address, a page
and an accumulator that exist, and there is no other refusal and no fault. THE MODEL'S CHOICE, not these rules: that a
bus-phase case, T.KEYON, T.KEYOFF and T.FREQW complete in a state that does not select them (log 4), and that LWRITE,
LREAD, BWR and BRD presented as records complete (log 5). -/
def Obligations.CompletesExactlyInRange : Prop :=
  ∀ (i : Instr) (s : State),
    ((∃ t, exec i s = .next t) ↔ operandsInRange i s) ∧
    ∀ r, exec i s = .refused r →
      r = .channelOutOfRange ∨ r = .addressOutOfRange ∨ r = .pageOutOfRange ∨ r = .accumulatorOutOfRange

/-- Every step keeps the machine's invariant: the holding register (41_edge_sequencer.md R159), a legal shadow page
(10_state.md R34), the pool's canonical form and range, reads that name accumulators, an admissible
configuration. -/
def Obligations.StepKeepsInv : Prop :=
  ∀ s t : State, s.inv → step s = .next t → t.inv

/-- The invariant holds right after reset. -/
def Obligations.ResetHasInv : Prop := State.reset.inv

/-- 20_memory.md R82 for every operation but RESET: the transactions removed from the queues are the oldest ones, and
the accesses the device has seen are exactly theirs, in order, a partial write byte preceded by one read of its
address; new transactions join behind. BWR and BRD join PQ, hence behind LQ only when LQ is empty (log 5). -/
def Obligations.BusFollowsProgramOrder : Prop :=
  ∀ (i : Instr) (s t : State), s.holdInv → exec i s = .next t → i ≠ .reset →
    ((∃ st a v m d, i = .bwr st a v m d ∨ i = .brd st a v m d) → s.lq = []) →
    ∃ (calls : List DevCall) (new : List PT) (k : Nat),
      t.trace = s.trace ++ calls ∧ k ≤ (s.backlog ++ new).length ∧
      t.backlog = (s.backlog ++ new).drop k ∧
      s.staged ++ busAccesses calls = ((s.backlog ++ new).take k).flatMap accessesOf ++ t.staged

/-- 41_edge_sequencer.md R161. -/
def Obligations.WriteLogMirrorsBus : Prop :=
  ∀ (i : Instr) (s t : State), exec i s = .next t →
    ∃ calls : List DevCall, t.trace = s.trace ++ calls ∧
      t.writeLog = s.writeLog ++ (if s.logEnable then busWrites calls else [])

/-- Which operation may write what: the host's settings, the accumulators, the results and every byte of the
register pool change only by the operations named (10_state.md R29 to R33, 41_edge_sequencer.md R150). THE MODEL'S
CHOICE, not these rules: that RESET leaves every byte of the pool, where R42 and R351 leave the device to Dev.reset()
(log 7), and that the results are fields which only their own operations write (log 14). -/
def Obligations.WhoWritesWhat : Prop :=
  ∀ (i : Instr) (s t : State), exec i s = .next t →
    t.cfg = s.cfg ∧ t.port = s.port ∧ t.stores = s.stores ∧ t.acc.length = s.acc.length ∧
    (t.skipWrites ≠ s.skipWrites → ∃ b, i = .setskip b) ∧
    (t.logEnable ≠ s.logEnable → ∃ b, i = .setlog b) ∧
    (t.initChanMax ≠ s.initChanMax → ∃ n, i = .setchan n) ∧
    (t.chanMax ≠ s.chanMax → i = .reset ∨ ∃ n, i = .setchan n) ∧
    (t.muted ≠ s.muted → ∃ k b, i = .mute k b) ∧
    (t.snapshot ≠ s.snapshot → i = .snapshot) ∧
    (t.effectName ≠ s.effectName → ∃ n, i = .effectname n) ∧
    (t.samples ≠ s.samples → ∃ o n, i = .generate o n) ∧
    (t.acc ≠ s.acc → i = .reset ∨ i = .edge ∨ i = .edgeRd ∨ (∃ o n, i = .generate o n) ∨
      ∃ st a v m d, i = .bwr st a v m d ∨ i = .brd st a v m d) ∧
    ((∃ a, Memory.read t.pool a ≠ Memory.read s.pool a) →
      i = .edge ∨ i = .edgeWfull ∨ i = .edgeWcommit ∨ (∃ o n, i = .generate o n) ∨
      ∃ st a v m d, i = .bwr st a v m d ∨ i = .brd st a v m d)

/-! ### Reset -/

/-- 45_device_facade.md R290 and 70_reset_and_hazards.md R351: everything RESET writes, and that it writes nothing
else. THE MODEL'S CHOICE, not these rules: that the register pool and the device's page register stay as they are
(log 7, unsafe; R351 leaves the device to Dev.reset()), and that code, samples, snapshot and effectName stay
(log 14). -/
def Obligations.ResetResult : Prop :=
  ∀ s : State,
    exec .reset s = .next
      { s with
        lq := if s.skipWrites then []
              else [⟨.write 0x00000000, s.cfg.regPage, allBits, 0⟩,
                    ⟨.write (s.initChanMax.setWidth 32), s.cfg.regActv, allBits, 0⟩]
        pq := []
        cycle := 0
        wasRead := false
        holdVal := 0
        holdValid := false
        irqLatched := false
        acc := (List.replicate s.acc.length 0).set s.cfg.accIrqv 0x00000080
        ch := Bank.fill s.cfg.chanInit
        curPage := 0
        chanMax := s.initChanMax
        trace := s.trace ++ .reset :: (List.finRange 32).map fun i => .setMute i (s.muted.get i) }

/-- 70_reset_and_hazards.md R350: the start state is that after RESET of any state with nothing muted, no write
skipped, no log and initChanMax 31, under the default configuration with one accumulator. -/
def Obligations.StartStateIsReset : Prop :=
  ∀ s : State, s.cfg = Cfg.default → s.acc.length = 1 → s.muted = Bank.fill false → s.skipWrites = false →
    s.logEnable = false → s.writeLog = [] → s.initChanMax = 31 →
    ∃ t, exec .reset s = .next t ∧ t.lq = State.reset.lq ∧ t.pq = State.reset.pq ∧
      t.cycle = State.reset.cycle ∧ t.wasRead = State.reset.wasRead ∧ t.holdVal = State.reset.holdVal ∧
      t.holdValid = State.reset.holdValid ∧ t.irqLatched = State.reset.irqLatched ∧ t.acc = State.reset.acc ∧
      t.skipWrites = State.reset.skipWrites ∧ t.logEnable = State.reset.logEnable ∧
      t.writeLog = State.reset.writeLog ∧ t.chanMax = State.reset.chanMax ∧
      t.initChanMax = State.reset.initChanMax ∧ t.muted = State.reset.muted ∧
      t.curPage = State.reset.curPage ∧ t.ch = State.reset.ch

/-! ### The queue -/

/-- 40_bus_queue.md R130. -/
def Obligations.EnqwQueuesOrSkips : Prop :=
  ∀ (value mask delay : Word) (s : State),
    (∀ a : BitVec 4, s.skipWrites = false →
      exec (.enqw (a.setWidth 32) value mask delay) s =
        .next { s with lq := s.lq ++ [⟨.write value, a, mask, delay⟩] }) ∧
    (∀ a : BitVec 4, s.skipWrites = true → exec (.enqw (a.setWidth 32) value mask delay) s = .next s) ∧
    ∀ addr : Word, 15 < addr.toNat → exec (.enqw addr value mask delay) s = .refused .addressOutOfRange

/-- 40_bus_queue.md R131. -/
def Obligations.EnqrQueuesAlways : Prop :=
  ∀ (dest mask delay : Word) (s : State),
    (∀ a : BitVec 4, dest.toNat < s.acc.length →
      exec (.enqr (a.setWidth 32) dest mask delay) s =
        .next { s with lq := s.lq ++ [⟨.read dest.toNat, a, mask, delay⟩] }) ∧
    (∀ a : BitVec 4, s.acc.length ≤ dest.toNat →
      exec (.enqr (a.setWidth 32) dest mask delay) s = .refused .accumulatorOutOfRange) ∧
    ∀ addr : Word, 15 < addr.toNat → exec (.enqr addr dest mask delay) s = .refused .addressOutOfRange

/-- 40_bus_queue.md R134: N logical transactions become exactly 4N physical ones behind those already in PQ, the
j-th step of the k-th at place 4k + j, the delay on step 3 only; nothing else changes. -/
def Obligations.ExpandFourSteps : Prop :=
  ∀ s : State, ∃ t, exec .expand s = .next t ∧ t.lq = [] ∧ { t with lq := s.lq, pq := s.pq } = s ∧
    t.pq.length = s.pq.length + 4 * s.lq.length ∧ t.pq.take s.pq.length = s.pq ∧
    ∀ (k : Nat) (j : BitVec 2) (w : LT), s.lq[k]? = some w →
      t.pq[s.pq.length + 4 * k + j.toNat]? =
        some ⟨w.payload, j, w.address, w.mask, if j = 3 then w.delay else 0⟩

/-- 40_bus_queue.md R135. -/
def Obligations.PageselSwitches : Prop :=
  ∀ (pm : Byte) (s : State),
    (∀ p : BitVec 7, s.skipWrites = true → exec (.pagesel (p.setWidth 32) pm) s = .next s) ∧
    (∀ p : BitVec 7, s.skipWrites = false → p.setWidth 8 &&& pm = s.curPage &&& pm →
      exec (.pagesel (p.setWidth 32) pm) s = .next s) ∧
    (∀ p : BitVec 7, s.skipWrites = false → p.setWidth 8 &&& pm ≠ s.curPage &&& pm →
      exec (.pagesel (p.setWidth 32) pm) s =
        .next { s with curPage := p.setWidth 8
                       lq := s.lq ++ [⟨.write (p.setWidth 32), s.cfg.regPage, allBits, 0⟩] }) ∧
    ∀ p : Word, 127 < p.toNat → exec (.pagesel p pm) s = .refused .pageOutOfRange

/-- 40_bus_queue.md R136, R137: at most two writes, the page select just before the register write, the delay on
the register write; PGWRITE is PGWRITEM under the full page mask. -/
def Obligations.PageWriteResult : Prop :=
  ∀ (pm : Byte) (v m d : Word) (s : State),
    (∀ (p : BitVec 7) (r : BitVec 4), s.skipWrites = true →
      exec (.pgwritem (p.setWidth 32) pm (r.setWidth 32) v m d) s = .next s) ∧
    (∀ (p : BitVec 7) (r : BitVec 4), s.skipWrites = false → p.setWidth 8 &&& pm = s.curPage &&& pm →
      exec (.pgwritem (p.setWidth 32) pm (r.setWidth 32) v m d) s =
        .next { s with lq := s.lq ++ [⟨.write v, r, m, d⟩] }) ∧
    (∀ (p : BitVec 7) (r : BitVec 4), s.skipWrites = false → p.setWidth 8 &&& pm ≠ s.curPage &&& pm →
      exec (.pgwritem (p.setWidth 32) pm (r.setWidth 32) v m d) s =
        .next { s with curPage := p.setWidth 8
                       lq := s.lq ++ [⟨.write (p.setWidth 32), s.cfg.regPage, allBits, 0⟩, ⟨.write v, r, m, d⟩] }) ∧
    (∀ p r : Word, 127 < p.toNat → exec (.pgwritem p pm r v m d) s = .refused .pageOutOfRange) ∧
    (∀ p r : Word, p.toNat ≤ 127 → 15 < r.toNat →
      exec (.pgwritem p pm r v m d) s = .refused .addressOutOfRange) ∧
    (∀ p r : Word, exec (.pgwrite p r v m d) s = exec (.pgwritem p s.cfg.pmFull r v m d) s) ∧
    ∀ (p : BitVec 7) (r : BitVec 4), ∃ t, exec (.pgwrite (p.setWidth 32) (r.setWidth 32) v m d) s = .next t ∧
      exec (.pgwritem (p.setWidth 32) s.cfg.pmFull (r.setWidth 32) v m d) s = .next t

/-- 40_bus_queue.md R139: between two consecutive page-addressed writes lies no page select if the second page agrees
with the shadow under its mask, and otherwise exactly one, just before the second write. -/
def Obligations.PageSwitchMinimal : Prop :=
  ∀ (p1 p2 : BitVec 7) (pm1 pm2 : Byte) (r1 r2 : BitVec 4) (v1 m1 d1 v2 m2 d2 : Word) (s : State),
    s.skipWrites = false →
    ∃ t u, exec (.pgwritem (p1.setWidth 32) pm1 (r1.setWidth 32) v1 m1 d1) s = .next t ∧
      exec (.pgwritem (p2.setWidth 32) pm2 (r2.setWidth 32) v2 m2 d2) t = .next u ∧
      (t.curPage = p1.setWidth 8 ∨ t.curPage &&& pm1 = p1.setWidth 8 &&& pm1) ∧
      t.lq.getLast? = some ⟨.write v1, r1, m1, d1⟩ ∧
      u.lq = t.lq ++ (if p2.setWidth 8 &&& pm2 = t.curPage &&& pm2 then []
          else [⟨.write (p2.setWidth 32), s.cfg.regPage, allBits, 0⟩]) ++ [⟨.write v2, r2, m2, d2⟩]

/-- A logical transaction presented as a record joins the back of LQ, and LQ is expanded. That a record is run so is
the model's choice (log 5); the effect is that of 40_bus_queue.md R133, R134. -/
def Obligations.LogicalRecordsJoin : Prop :=
  ∀ (a : BitVec 4) (x mask delay : Word) (s : State),
    exec (.lwrite a x mask delay) s =
      .next { s with lq := [], pq := s.pq ++ (s.lq ++ [(⟨.write x, a, mask, delay⟩ : LT)]).flatMap expandLT } ∧
    (x.toNat < s.acc.length → exec (.lread a x mask delay) s =
      .next { s with lq := [], pq := s.pq ++ (s.lq ++ [(⟨.read x.toNat, a, mask, delay⟩ : LT)]).flatMap expandLT }) ∧
    (s.acc.length ≤ x.toNat → exec (.lread a x mask delay) s = .refused .accumulatorOutOfRange)

/-- A physical transaction presented as a record joins the back of PQ, and one bus phase runs. That a record is run
so is the model's choice (log 5), and so is the delay kept with a step 0 to 2 (log 27); on an idle bus with nothing ahead of it the effect is that of 41_edge_sequencer.md
R153, R155 and R156 on the transaction itself. -/
def Obligations.PhysicalRecordsJoin : Prop :=
  ∀ (st : BitVec 2) (a : BitVec 4) (x mask delay : Word) (s : State),
    (let u : State := { s with pq := s.pq ++ [⟨.write x, st, a, mask, delay⟩] }
     (∃ t, exec (.bwr st a x mask delay) s = .next t ∧ exec u.busCase.instr u = .next t) ∧
     (s.cycle = 0 → s.pq = [] → byteOf mask st = 0xFF →
       exec (.bwr st a x mask delay) s = exec .edgeWfull u) ∧
     (s.cycle = 0 → s.pq = [] → byteOf mask st ≠ 0xFF → s.holdValid = false →
       exec (.bwr st a x mask delay) s = exec .edgeWstage u)) ∧
    (x.toNat < s.acc.length →
      let u : State := { s with pq := s.pq ++ [⟨.read x.toNat, st, a, mask, delay⟩] }
      (∃ t, exec (.brd st a x mask delay) s = .next t ∧ exec u.busCase.instr u = .next t) ∧
      (s.cycle = 0 → s.pq = [] → exec (.brd st a x mask delay) s = exec .edgeRd u)) ∧
    (s.acc.length ≤ x.toNat → exec (.brd st a x mask delay) s = .refused .accumulatorOutOfRange)

/-! ### The edge sequencer -/

/-- 41_edge_sequencer.md R152 and R154: a busy edge only decrements the countdown, a delay of d costs exactly d busy
edges, and an idle bus phase changes nothing. The model counts the edge (log 19). -/
def Obligations.BusyAndIdle : Prop :=
  ∀ s : State,
    (0 < s.cycle → exec .edgeBusy s = .next { s with cycle := s.cycle - 1, edgeNo := s.edgeNo + 1 }) ∧
    (s.wasRead = false → ∀ d, s.cycle = d →
      runAll (List.replicate d .edge) s = .next { s with cycle := 0, edgeNo := s.edgeNo + d }) ∧
    (s.cycle = 0 → s.pq = [] → exec .edgeIdle s = .next { s with edgeNo := s.edgeNo + 1 })

/-- 41_edge_sequencer.md R153: one byte of a read. `hostByte` is what the device answers, whatever it is. -/
def Obligations.EdgeRdMerges : Prop :=
  ∀ (s : State) (w : PT) (dest : Nat) (rest : List PT),
    s.cycle = 0 → s.pq = w :: rest → w.payload = .read dest →
    let sh := 24 - 8 * w.step.toNat
    let a := busAddr w.address w.step
    let b := s.hostByte a
    let bitsel := (0xFF#32 <<< sh) &&& w.mask
    exec .edgeRd s = .next
      { s with
        acc := s.acc.set dest ((s.acc.getD dest 0 &&& ~~~bitsel) ||| ((b.setWidth 32 <<< sh) &&& w.mask))
        cycle := if w.step = 3 then w.delay.toNat else 0
        wasRead := if w.step = 3 then true else s.wasRead
        pq := rest
        freeCtr := s.freeCtr + 1
        trace := s.trace ++ [.bus ⟨s.edgeNo, false, a, b⟩]
        edgeNo := s.edgeNo + 1 }

/-- 41_edge_sequencer.md R155: a full-mask write byte. THE MODEL'S CHOICE (log 7), not this rule: what the write does
to the register pool and to the device's page register, the pool changing at the byte's place alone and the page at
the last byte of REG_PAGE. -/
def Obligations.EdgeWfullWrites : Prop :=
  ∀ (s : State) (w : PT) (v : Word) (rest : List PT),
    s.cycle = 0 → s.pq = w :: rest → w.payload = .write v → byteOf w.mask w.step = 0xFF →
    let a := busAddr w.address w.step
    let nb := byteOf v w.step
    let t : State :=
      { s with
        writeLog := if s.logEnable then s.writeLog ++ [(a.setWidth 8, nb)] else s.writeLog
        holdValid := false
        cycle := if w.step = 3 then w.delay.toNat else 0
        pq := rest
        pool := Memory.write s.pool (poolAddr s.devPage a) nb
        devPage := if a = busAddr s.cfg.regPage 3 then nb.setWidth 7 else s.devPage
        trace := s.trace ++ [.bus ⟨s.edgeNo, true, a, nb⟩]
        edgeNo := s.edgeNo + 1 }
    exec .edgeWfull s = .next t ∧
    (Memory.wf s.pool = true → ∀ x,
      Memory.read t.pool x = if x = poolAddr s.devPage a then nb else Memory.read s.pool x)

/-- 41_edge_sequencer.md R156: staging of a partial write byte; nothing is written to the device. -/
def Obligations.EdgeWstageReads : Prop :=
  ∀ (s : State) (w : PT) (v : Word) (rest : List PT),
    s.cycle = 0 → s.pq = w :: rest → w.payload = .write v → byteOf w.mask w.step ≠ 0xFF → s.holdValid = false →
    let a := busAddr w.address w.step
    let old := s.hostByte a
    let bm := byteOf w.mask w.step
    exec .edgeWstage s = .next
      { s with
        holdVal := (byteOf v w.step &&& bm) ||| (old &&& ~~~bm)
        holdValid := true
        freeCtr := s.freeCtr + 1
        trace := s.trace ++ [.bus ⟨s.edgeNo, false, a, old⟩]
        edgeNo := s.edgeNo + 1 }

/-- 41_edge_sequencer.md R157: commit of a staged byte. THE MODEL'S CHOICE (log 7), not this rule: what the write does
to the register pool and to the device's page register, the pool changing at the byte's place alone and the page at
the last byte of REG_PAGE. -/
def Obligations.EdgeWcommitWrites : Prop :=
  ∀ (s : State) (w : PT) (v : Word) (rest : List PT),
    s.cycle = 0 → s.pq = w :: rest → w.payload = .write v → byteOf w.mask w.step ≠ 0xFF → s.holdValid = true →
    let a := busAddr w.address w.step
    let t : State :=
      { s with
        writeLog := if s.logEnable then s.writeLog ++ [(a.setWidth 8, s.holdVal)] else s.writeLog
        holdValid := false
        cycle := if w.step = 3 then w.delay.toNat else 0
        pq := rest
        pool := Memory.write s.pool (poolAddr s.devPage a) s.holdVal
        devPage := if a = busAddr s.cfg.regPage 3 then s.holdVal.setWidth 7 else s.devPage
        trace := s.trace ++ [.bus ⟨s.edgeNo, true, a, s.holdVal⟩]
        edgeNo := s.edgeNo + 1 }
    exec .edgeWcommit s = .next t ∧
    (Memory.wf s.pool = true → ∀ x,
      Memory.read t.pool x = if x = poolAddr s.devPage a then s.holdVal else Memory.read s.pool x)

/-- 41_edge_sequencer.md R150: an edge is the service phase, then exactly the one case the state selects; at most one
bus access is made. -/
def Obligations.EdgeIsServiceThenCase : Prop :=
  ∀ s : State, ∃ u t, exec .edgeSvc s = .next u ∧ exec .edge s = .next t ∧
    (0 < u.cycle → exec .edgeBusy u = .next t) ∧
    (u.cycle = 0 → u.pq = [] → exec .edgeIdle u = .next t) ∧
    (∀ w rest, u.cycle = 0 → u.pq = w :: rest →
      (∀ dest, w.payload = .read dest → exec .edgeRd u = .next t) ∧
      (∀ v, w.payload = .write v →
        (byteOf w.mask w.step = 0xFF → exec .edgeWfull u = .next t) ∧
        (byteOf w.mask w.step ≠ 0xFF → u.holdValid = false → exec .edgeWstage u = .next t) ∧
        (byteOf w.mask w.step ≠ 0xFF → u.holdValid = true → exec .edgeWcommit u = .next t))) ∧
    ∃ calls : List DevCall, t.trace = s.trace ++ calls ∧ calls.length ≤ 1

/-- 41_edge_sequencer.md R151: the interrupt service phase, case by case. Under RevFlip's default the value and mask of
the flip are those of 30_encoding.md R117: the direction bit alone, opposite to the one the key-on set. -/
def Obligations.ServiceResult : Prop :=
  ∀ s : State,
    (s.wasRead = false → exec .edgeSvc s = .next s) ∧
    (s.wasRead = true → s.irqLatched = false → exec .edgeSvc s = .next { s with wasRead := false }) ∧
    (s.wasRead = true → s.irqLatched = true →
      let t : State := { s with wasRead := false, irqLatched := false }
      let v : Byte := (s.acc.getD s.cfg.accIrqv 0).setWidth 8
      (v.getLsbD 7 = true → exec .edgeSvc s = .next t) ∧
      ∀ c : ChIx, v.getLsbD 7 = false → c.val = (v.setWidth 5).toNat →
        ((s.chan c).isReverseLoop = false → exec .edgeSvc s = .next t) ∧
        ((s.chan c).isReverseLoop = true →
          let flip := revFlip s.cfg (s.chan c).pcm.reversed
          ∃ u, exec (crFieldWrite s.cfg c flip.1 flip.2) t = .next u ∧
            exec .edgeSvc s =
              .next { u with ch := u.ch.set c { u.chan c with isReverseLoop := false } }) ∧
        (s.cfg.revFlipFn = .specDefault →
          revFlip s.cfg (s.chan c).pcm.reversed =
            (if (s.chan c).pcm.reversed then 0 else 1#32 <<< s.cfg.crDir, 1#32 <<< s.cfg.crDir)) ∧
        (s.cfg = Cfg.default →
          revFlip s.cfg (s.chan c).pcm.reversed =
            (if (s.chan c).pcm.reversed then 0x00000000 else 0x00000040, 0x00000040)))

/-- 60_exceptions.md R323: the latch is set and the vector read joins LQ, whatever skipWrites holds. -/
def Obligations.IrqAssertLatches : Prop :=
  ∀ s : State,
    exec .irqAssert s =
      .next { s with irqLatched := true
                     lq := s.lq ++ [⟨.read s.cfg.accIrqv, s.cfg.regIrqv, s.cfg.irqvMask, 0⟩] }

/-- 60_exceptions.md R327: after a service, a further interrupt with the same vector runs the path and emits
nothing. -/
def Obligations.SecondInterruptEmitsNothing : Prop :=
  ∀ s : State, s.wasRead = true → s.irqLatched = true →
    ∃ t, exec .edgeSvc s = .next t ∧ t.wasRead = false ∧ t.irqLatched = false ∧ t.acc = s.acc ∧
      exec .edgeSvc { t with wasRead := true, irqLatched := true } = .next t

/-- 41_edge_sequencer.md R158, R160: a masked logical write at the front of PQ of an idle bus takes 4 + p edges, p its
partial bytes, writes each of the register's four bytes once, and leaves the device's register (value and mask) or
(old and not mask) and every other byte as it was. The device that does not change the register by itself is the
register pool of 93 U4; what that pool and its page register hold is THE MODEL'S CHOICE (log 6, 7). -/
def Obligations.LogicalWriteOnBus : Prop :=
  ∀ (s : State) (a : BitVec 4) (v m d : Word) (rest : List PT),
    s.cycle = 0 → s.holdValid = false → s.wasRead = false →
    s.pq = expandLT ⟨.write v, a, m, d⟩ ++ rest →
    ∃ t, runAll (List.replicate (4 + partialBytes m) .edge) s = .next t ∧
      t.pq = rest ∧ t.cycle = d.toNat ∧ t.holdValid = false ∧ t.wasRead = false ∧ t.lq = s.lq ∧ t.ch = s.ch ∧
      t.acc = s.acc ∧ t.curPage = s.curPage ∧ t.irqLatched = s.irqLatched ∧
      (∃ calls : List DevCall, t.trace = s.trace ++ calls ∧
        (busWrites calls).map Prod.fst =
          [(busAddr a 0).setWidth 8, (busAddr a 1).setWidth 8, (busAddr a 2).setWidth 8,
            (busAddr a 3).setWidth 8]) ∧
      (s.cfg.device = .pool → Memory.wf s.pool = true →
        let old := poolReg s.pool s.devPage.toNat a.toNat
        let new := (v &&& m) ||| (old &&& ~~~m)
        poolReg t.pool s.devPage.toNat a.toNat = new ∧
        t.devPage = (if a = s.cfg.regPage then new.setWidth 7 else s.devPage) ∧
        ∀ x, x / 4 ≠ s.devPage.toNat * 16 + a.toNat → Memory.read t.pool x = Memory.read s.pool x)

/-- 40_bus_queue.md R133, 41_edge_sequencer.md R153: a logical read at the front of PQ of an idle bus takes four edges,
changes only the masked bits of its accumulator, and on the register pool of 93 U4 leaves there the register's bits.
What that pool answers is THE MODEL'S CHOICE (log 6, 7), not these rules. -/
def Obligations.LogicalReadOnBus : Prop :=
  ∀ (s : State) (a : BitVec 4) (dest : Nat) (m d : Word) (rest : List PT),
    s.cycle = 0 → s.wasRead = false → dest < s.acc.length →
    s.pq = expandLT ⟨.read dest, a, m, d⟩ ++ rest →
    ∃ t, runAll (List.replicate 4 .edge) s = .next t ∧
      t.pq = rest ∧ t.cycle = d.toNat ∧ t.wasRead = true ∧ t.lq = s.lq ∧ t.ch = s.ch ∧ t.pool = s.pool ∧
      t.devPage = s.devPage ∧ t.holdValid = s.holdValid ∧ t.acc.length = s.acc.length ∧
      (∀ j, j ≠ dest → t.acc.getD j 0 = s.acc.getD j 0) ∧
      t.acc.getD dest 0 &&& ~~~m = s.acc.getD dest 0 &&& ~~~m ∧
      (s.cfg.device = .pool →
        t.acc.getD dest 0 =
          (s.acc.getD dest 0 &&& ~~~m) ||| (poolReg s.pool s.devPage.toNat a.toNat &&& m))

/-- THE MODEL'S CHOICE (log 4): a bus-phase case, and a sub-step of step 5, run where its own condition (41_edge_sequencer.md
R150, 43_keyon_keyoff.md R234 to R236) does not
hold changes nothing. -/
def Obligations.UnselectedDoesNothing : Prop :=
  ∀ s : State,
    (∀ c : BusCase, s.busCase ≠ c → exec c.instr s = .next s) ∧
    ∀ (i : ChIx) (m : MacroIn),
      ((s.chan i).keyOn = false ∨ (s.chan i).pcm.index = none → exec (.tKeyon i m) s = .next s) ∧
      ((s.chan i).keyOff = false → exec (.tKeyoff i) s = .next s) ∧
      ((s.chan i).keyOn = true ∨ (s.chan i).keyOff = true ∨ (s.chan i).active = false →
        exec (.tFreqw i) s = .next s)

/-! ### The translator -/

/-- 42_channel_translator.md R182 to R189 and R191, field by field: a slot that was not delivered changes nothing, a
value equal to the old one sets no flag, the relative mode of `ex2` takes its offset from `ex1`. The envelope part is
stated for the placeholder EnvMacroMap, and for every EnvMacroMap where neither of its slots was delivered (log 11).
THE MODEL'S CHOICE (log 4), not these rules: T.MACRO acts so on a channel above chanMax too. -/
def Obligations.MacroResult : Prop :=
  ∀ (i : ChIx) (m : MacroIn) (s : State),
    let c := s.chan i
    let coefficient (k : Half) (t : Slot) : Half :=
      if t.had ∧ (t.mode = 0 ∨ t.mode = 1) then clampHalf t.val
      else if t.had ∧ t.mode = 2 then clampHalf (k.toNat + t.val)
      else k
    ∃ x : Chan, exec (.tMacro i m) s = .next { s with ch := s.ch.set i x } ∧
      x.outVol = (if m.vol.had then volMacroApply s.cfg c.vol m.vol.val else c.outVol) ∧
      x.outLVol = (if m.panL.had then panMacroApply s.cfg c.lVol m.panL.val else c.outLVol) ∧
      x.outRVol = (if m.panR.had then panMacroApply s.cfg c.rVol m.panR.val else c.outRVol) ∧
      x.volChanged = (c.volChanged || decide (x.outVol ≠ c.outVol) || decide (x.outLVol ≠ c.outLVol) ||
        decide (x.outRVol ≠ c.outRVol)) ∧
      x.baseFreq = (if m.arp.had then noteFreq s.cfg (arpNote s.cfg c.note m.arp.val m.arp.mode)
        else c.baseFreq) ∧
      x.pitch2 = (if m.pitch.had then
          (if m.pitch.mode = 1 then c.pitch2 + m.pitch.val else m.pitch.val) else c.pitch2) ∧
      x.freqChanged = (c.freqChanged || decide (x.baseFreq ≠ c.baseFreq) || decide (x.pitch2 ≠ c.pitch2)) ∧
      x.keyOn = (c.keyOn || (m.phaseReset.had && decide (m.phaseReset.val = 1))) ∧
      x.filter.mode = (if m.duty.had then BitVec.ofInt 2 m.duty.val else c.filter.mode) ∧
      x.filter.k1 = coefficient c.filter.k1 m.ex1 ∧ x.filter.k2 = coefficient c.filter.k2 m.ex2 ∧
      x.k1Offs = (if m.ex1.had ∧ m.ex1.mode = 0 then m.ex1.val else c.k1Offs) ∧
      x.k2Offs = (if m.ex2.had ∧ m.ex2.mode = 0 then m.ex1.val else c.k2Offs) ∧
      x.filterChanged.mode = (c.filterChanged.mode || decide (x.filter.mode ≠ c.filter.mode)) ∧
      x.filterChanged.k1 = (c.filterChanged.k1 || decide (x.filter.k1 ≠ c.filter.k1) ||
        decide (x.k1Offs ≠ c.k1Offs)) ∧
      x.filterChanged.k2 = (c.filterChanged.k2 || decide (x.filter.k2 ≠ c.filter.k2) ||
        decide (x.k2Offs ≠ c.k2Offs)) ∧
      (s.cfg.envMacroFn = .specDefault →
        x.env = { c.env with
                  ecount := if m.ex3.had then BitVec.ofInt 16 m.ex3.val else c.env.ecount
                  lVRamp := if m.ex4.had then BitVec.ofInt 8 m.ex4.val else c.env.lVRamp
                  rVRamp := if m.ex4.had then BitVec.ofInt 8 m.ex4.val else c.env.rVRamp } ∧
        x.envChanged = { c.envChanged with
                  ecount := c.envChanged.ecount || decide (x.env.ecount ≠ c.env.ecount)
                  lVRamp := c.envChanged.lVRamp || decide (x.env.lVRamp ≠ c.env.lVRamp)
                  rVRamp := c.envChanged.rVRamp || decide (x.env.rVRamp ≠ c.env.rVRamp) }) ∧
      (m.ex3.had = false → m.ex4.had = false → x.env = c.env ∧ x.envChanged = c.envChanged) ∧
      { x with
        outVol := c.outVol, outLVol := c.outLVol, outRVol := c.outRVol, volChanged := c.volChanged
        baseFreq := c.baseFreq, pitch2 := c.pitch2, freqChanged := c.freqChanged, keyOn := c.keyOn
        filter := c.filter, k1Offs := c.k1Offs, k2Offs := c.k2Offs, filterChanged := c.filterChanged
        env := c.env, envChanged := c.envChanged } = c

/-- 42_channel_translator.md R190: the resultant volumes, forced to 0 by a mute; their writes, skipped while a key-on
is pending; the flag cleared either way. -/
def Obligations.VolResult : Prop :=
  ∀ (i : ChIx) (s : State),
    let c := s.chan i
    let l : Half := if s.muted.get i then 0 else BitVec.ofNat 16 (c.outVol.toNat * c.outLVol.toNat / 65535)
    let r : Half := if s.muted.get i then 0 else BitVec.ofNat 16 (c.outVol.toNat * c.outRVol.toNat / 65535)
    let x : Chan := { c with resLVol := l, resRVol := r, volChanged := false }
    (c.volChanged = false → exec (.tVol i) s = .next s) ∧
    (c.volChanged = true → c.keyOn = true → exec (.tVol i) s = .next { s with ch := s.ch.set i x }) ∧
    (c.volChanged = true → c.keyOn = false →
      ∃ u, runAll [regWrite (pgA s.cfg i) s.cfg.regLvol (l.setWidth 32),
          regWrite (pgA s.cfg i) s.cfg.regRvol (r.setWidth 32)] s = .next u ∧
        exec (.tVol i) s = .next { u with ch := s.ch.set i x })

/-- 42_channel_translator.md R192, R193, R195: the changed filter fields are written in the order mode, k2, k1, none
while a key-on is pending; the flags are cleared either way. -/
def Obligations.FiltResult : Prop :=
  ∀ (i : ChIx) (m : MacroIn) (s : State),
    let c := s.chan i
    let f := c.filterChanged
    let a := pgA s.cfg i
    let written (k : Half) (offs : Int) (t : Slot) : Word :=
      (if t.mode = 0 then clampHalf (k.toNat + offs) else k).setWidth 32
    let x : Chan := { c with filterChanged := ⟨false, false, false⟩ }
    (f = ⟨false, false, false⟩ → exec (.tFilt i m) s = .next s) ∧
    (f ≠ ⟨false, false, false⟩ → c.keyOn = true →
      exec (.tFilt i m) s = .next { s with ch := s.ch.set i x }) ∧
    (f ≠ ⟨false, false, false⟩ → c.keyOn = false →
      ∃ u, runAll
          ((if f.mode then [crFieldWrite s.cfg i (c.filter.mode.setWidth 32 <<< s.cfg.crLpShift)
              (3#32 <<< s.cfg.crLpShift)] else []) ++
            (if f.k2 then [regWrite a s.cfg.regK2 (written c.filter.k2 c.k2Offs m.ex2)] else []) ++
            (if f.k1 then [regWrite a s.cfg.regK1 (written c.filter.k1 c.k1Offs m.ex1)] else [])) s = .next u ∧
        exec (.tFilt i m) s = .next { u with ch := s.ch.set i x })

/-- 42_channel_translator.md R194, R195 and 30_encoding.md R110: the changed envelope fields are written in the order
lVRamp, rVRamp, ecount, k2Ramp, k1Ramp, none while a key-on is pending; the flags are cleared either way. -/
def Obligations.EnvResult : Prop :=
  ∀ (i : ChIx) (s : State),
    let c := s.chan i
    let f := c.envChanged
    let a := pgA s.cfg i
    let ramp (r : Byte) (slow : Bool) : Word := (r.setWidth 32 <<< s.cfg.rampShift) ||| (if slow then 1 else 0)
    let x : Chan := { c with envChanged := ⟨false, false, false, false, false⟩ }
    (f = ⟨false, false, false, false, false⟩ → exec (.tEnv i) s = .next s) ∧
    (f ≠ ⟨false, false, false, false, false⟩ → c.keyOn = true →
      exec (.tEnv i) s = .next { s with ch := s.ch.set i x }) ∧
    (f ≠ ⟨false, false, false, false, false⟩ → c.keyOn = false →
      ∃ u, runAll
          ((if f.lVRamp then [regWrite a s.cfg.regLvramp (ramp c.env.lVRamp false)] else []) ++
            (if f.rVRamp then [regWrite a s.cfg.regRvramp (ramp c.env.rVRamp false)] else []) ++
            (if f.ecount then [regWrite a s.cfg.regEcount (c.env.ecount.setWidth 32)] else []) ++
            (if f.k2Ramp then [regWrite a s.cfg.regK2ramp (ramp c.env.k2Ramp c.env.k2Slow)] else []) ++
            (if f.k1Ramp then [regWrite a s.cfg.regK1ramp (ramp c.env.k1Ramp c.env.k1Slow)] else [])) s = .next u ∧
        exec (.tEnv i) s = .next { u with ch := s.ch.set i x })

/-- 43_keyon_keyoff.md R220: the frequency is recomputed and clamped; key-on, key-off and the plain frequency write
each happen under their own condition, in that order; the three flags are cleared. With R221's default the frequency is
the floor of (baseFreq + pitch + pitch2) times freqOffs. -/
def Obligations.FreqResult : Prop :=
  (∀ (i : ChIx) (m : MacroIn) (s : State),
    let c := s.chan i
    let x : Chan := { c with freq := BitVec.ofInt 17 (clampInt (freqCalc s.cfg c) 0 0x1FFFF) }
    (c.freqChanged = false → c.keyOn = false → c.keyOff = false → exec (.tFreq i m) s = .next s) ∧
    (c.freqChanged = true ∨ c.keyOn = true ∨ c.keyOff = true →
      ∃ u, runAll
          ((if c.keyOn = true ∧ c.pcm.index ≠ none then [.tKeyon i m] else []) ++
            (if c.keyOff = true then [.tKeyoff i] else []) ++
            (if c.keyOn = false ∧ c.keyOff = false ∧ c.active = true then [.tFreqw i] else []))
          { s with ch := s.ch.set i x } = .next u ∧
        exec (.tFreq i m) s =
          .next { u with ch := u.ch.set i { u.chan i with keyOn := false, keyOff := false, freqChanged := false } })) ∧
  ∀ (cfg : Cfg) (c : Chan), cfg.freqCalcFn = .specDefault →
    freqCalc cfg c = ⌊((c.baseFreq + c.pitch + c.pitch2 : Int) : Rat) * c.freqOffs⌋

/-- 43_keyon_keyoff.md R223 to R234: the nineteen register writes of a key-on, in order, and the reverse-loop flag. -/
def Obligations.KeyonWrites : Prop :=
  ∀ (i : ChIx) (m : MacroIn) (s : State),
    let c := s.chan i
    let a := pgA s.cfg i
    let b := pgB s.cfg i
    let oneshot := decide (c.pcm.loopMode = .oneshot)
    let ramp (r : Byte) (slow : Bool) : Word := (r.setWidth 32 <<< s.cfg.rampShift) ||| (if slow then 1 else 0)
    let written (k : Half) (offs : Int) (t : Slot) : Word :=
      (if t.mode = 0 then clampHalf (k.toNat + offs) else k).setWidth 32
    c.keyOn = true → c.pcm.index ≠ none →
    ∃ u, runAll
        [crFieldWrite s.cfg i s.cfg.crWipeout allBits,
         regWrite a s.cfg.regEcount 0,
         regWrite b s.cfg.regAccum (if c.pcm.reversed then c.pcm.endAddr else c.pcm.start),
         regWrite a s.cfg.regK2 0x0000FFFF,
         .pgwrite (a.setWidth 32) (s.cfg.regK1.setWidth 32) 0x0000FFFF allBits
           (BitVec.ofNat 32 (4 * ((s.chanMax.toNat + 1) * 2))),
         regWrite a s.cfg.regFc (c.freq.setWidth 32),
         regWrite b s.cfg.regStart (if oneshot then c.pcm.start else c.pcm.loopStart),
         regWrite b s.cfg.regEnd (if oneshot then c.pcm.endAddr else c.pcm.loopEnd),
         regWrite a s.cfg.regLvramp (ramp c.env.lVRamp false),
         regWrite a s.cfg.regRvramp (ramp c.env.rVRamp false),
         regWrite a s.cfg.regK2ramp (ramp c.env.k2Ramp c.env.k2Slow),
         regWrite a s.cfg.regK1ramp (ramp c.env.k1Ramp c.env.k1Slow),
         crFieldWrite s.cfg i
           ((c.pcm.bank.setWidth 32 <<< s.cfg.crBsShift) ||| (c.filter.mode.setWidth 32 <<< s.cfg.crLpShift))
           ((3#32 <<< s.cfg.crBsShift) ||| (3#32 <<< s.cfg.crLpShift)),
         regWrite a s.cfg.regK2 (written c.filter.k2 c.k2Offs m.ex2),
         regWrite a s.cfg.regK1 (written c.filter.k1 c.k1Offs m.ex1),
         regWrite a s.cfg.regLvol (c.resLVol.setWidth 32),
         regWrite a s.cfg.regRvol (c.resRVol.setWidth 32),
         crFieldWrite s.cfg i (loopCtl s.cfg c.pcm.loopMode c.pcm.reversed) (crLoopMask s.cfg),
         regWrite a s.cfg.regEcount (c.env.ecount.setWidth 32)] s = .next u ∧
      exec (.tKeyon i m) s =
        .next
          { u with
            ch := u.ch.set i
              { u.chan i with isReverseLoop := decide (c.pcm.loopMode = .backward) || c.isReverseLoop } }

/-- 43_keyon_keyoff.md R234 with 30_encoding.md R116, under the default configuration, from the channel's own parameter
page: exactly these 23 transactions, four of them page selects, and the shadow ends where it began. -/
def Obligations.KeyOnQueuesTwentyThree : Prop :=
  ∀ (i : ChIx) (m : MacroIn) (s : State),
    let c := s.chan i
    let full (r : BitVec 4) (v : Word) : LT := ⟨.write v, r, allBits, 0⟩
    let pageA : LT := full 0xF (BitVec.ofNat 32 i.val)
    let pageB : LT := full 0xF (BitVec.ofNat 32 (0x20 + i.val))
    let oneshot := decide (c.pcm.loopMode = .oneshot)
    let ramp (r : Byte) (slow : Bool) : Word := (r.setWidth 32 <<< 8) ||| (if slow then 1 else 0)
    let written (k : Half) (offs : Int) (t : Slot) : Word :=
      (if t.mode = 0 then clampHalf (k.toNat + offs) else k).setWidth 32
    let loop : Word :=
      (match c.pcm.loopMode with
        | .oneshot => 0x00
        | .forward => 0x08
        | .backward => 0x28
        | .pingpong => 0x18) ||| (if c.pcm.reversed then 0x40 else 0x00)
    c.keyOn = true → c.pcm.index ≠ none → s.cfg = Cfg.default → s.skipWrites = false →
    s.curPage = BitVec.ofNat 8 i.val →
    ∃ t, exec (.tKeyon i m) s = .next t ∧ t.curPage = s.curPage ∧
      t.lq = s.lq ++
        [full 0x0 0, full 0x6 0, pageB, full 0x3 (if c.pcm.reversed then c.pcm.endAddr else c.pcm.start), pageA,
         full 0x7 0x0000FFFF, ⟨.write 0x0000FFFF, 0x9, allBits, BitVec.ofNat 32 (8 * (s.chanMax.toNat + 1))⟩,
         full 0x1 (c.freq.setWidth 32), pageB, full 0x1 (if oneshot then c.pcm.start else c.pcm.loopStart),
         full 0x2 (if oneshot then c.pcm.endAddr else c.pcm.loopEnd), pageA,
         full 0x3 (ramp c.env.lVRamp false), full 0x5 (ramp c.env.rVRamp false),
         full 0x8 (ramp c.env.k2Ramp c.env.k2Slow), full 0xA (ramp c.env.k1Ramp c.env.k1Slow),
         ⟨.write ((c.pcm.bank.setWidth 32 <<< 14) ||| (c.filter.mode.setWidth 32 <<< 8)), 0x0, 0x0000C300, 0⟩,
         full 0x7 (written c.filter.k2 c.k2Offs m.ex2), full 0x9 (written c.filter.k1 c.k1Offs m.ex1),
         full 0x2 (c.resLVol.setWidth 32), full 0x4 (c.resRVol.setWidth 32),
         ⟨.write loop, 0x0, 0x00000078, 0⟩, full 0x6 (c.env.ecount.setWidth 32)]

/-- 43_keyon_keyoff.md R235, R236: the key-off wipe of the control register, and the plain frequency write. THE MODEL'S
CHOICE (log 4), not these rules: T.FREQW presented alone makes its write with freqChanged clear too. -/
def Obligations.KeyoffAndFreqw : Prop :=
  ∀ (i : ChIx) (s : State),
    ((s.chan i).keyOff = true →
      ∃ t, exec (crFieldWrite s.cfg i s.cfg.crWipeout allBits) s = .next t ∧ exec (.tKeyoff i) s = .next t) ∧
    ((s.chan i).keyOn = false → (s.chan i).keyOff = false → (s.chan i).active = true →
      ∃ t, exec (regWrite (pgA s.cfg i) s.cfg.regFc ((s.chan i).freq.setWidth 32)) s = .next t ∧
        exec (.tFreqw i) s = .next t)

/-- 43_keyon_keyoff.md R237: step 5 leaves its three flags clear; a pass leaves every dirty flag and both key flags of
every channel up to chanMax clear, and the channels above as they were. -/
def Obligations.PassClearsFlags : Prop :=
  (∀ (i : ChIx) (m : MacroIn) (s : State), ∃ t, exec (.tFreq i m) s = .next t ∧
    (t.chan i).keyOn = false ∧ (t.chan i).keyOff = false ∧ (t.chan i).freqChanged = false) ∧
  ∀ (isSystemTick : Bool) (s : State), ∃ t, exec (.tick isSystemTick) s = .next t ∧
    ∀ i : ChIx, (i.val ≤ s.chanMax.toNat → flagsClear (t.chan i)) ∧
      (s.chanMax.toNat < i.val → t.chan i = s.chan i)

/-- 42_channel_translator.md R180, 45_device_facade.md R300: a tick is, for the channels 0 to chanMax ascending, the
macro input taken and the five steps in order. What taking an input is: the input and cursor scripted for the channel,
or else, with nothing scripted, what the macro engine answers for its cursor when handed isSystemTick. That the inputs
are scripted or free in this way is THE MODEL'S CHOICE (log 9). -/
def Obligations.TickRunsSteps : Prop :=
  (∀ (isSystemTick : Bool) (s : State),
    ∃ t, passSteps isSystemTick ((List.finRange 32).filter fun i => decide (i.val ≤ s.chanMax.toNat)) s = .next t ∧
      exec (.tick isSystemTick) s = .next t) ∧
  ∀ (isSystemTick : Bool) (i : ChIx) (s : State),
    let taken (m : MacroStep) : State := { s with ch := s.ch.set i { s.chan i with cursor := m.cursor } }
    (∀ m rest, s.macroIn = m :: rest →
      s.nextMacro i isSystemTick = m ∧ s.takeMacro i isSystemTick = { taken m with macroIn := rest }) ∧
    (s.macroIn = [] →
      let m := Config.macroAdvance s.freeCtr (s.chan i).cursor isSystemTick
      s.nextMacro i isSystemTick = m ∧
        s.takeMacro i isSystemTick = { taken m with freeCtr := s.freeCtr + 1 })

/-! ### Commands -/

/-- 44_command_dispatcher.md R252, R269: NOTE_ON resolves the sample directly or through the note map, derives its
region, takes the presets, and marks the channel; without a valid sample the channel has none and the defaults. The
instrument and the sample are those of the store of this step (R251). THE MODEL'S CHOICE (log 28): rates and mapped
frequencies are rational numbers. -/
def Obligations.NoteOnResult : Prop :=
  ∀ (i : ChIx) (note : Word) (s : State),
    let c := s.chan i
    let n := note.toInt
    let ins := insStore s.stores c.ins
    let resolves (k : Nat) (freq : Rat) : Prop :=
      (ins.useNoteMap = false ∧ ins.initSample = some k ∧ freq = 8363) ∨
      (ins.useNoteMap = true ∧ ins.noteMap.lookup n = some (k, freq))
    let x : Chan :=
      { c with
        k1Offs := 0, k2Offs := 0, note := n, baseFreq := noteFreq s.cfg n, active := true, keyOn := true
        volChanged := true, freqChanged := true, filterChanged := ⟨true, true, true⟩
        envChanged := ⟨true, true, true, true, true⟩, cursor := Config.macroInit ins }
    let position (p : Nat) : Word := BitVec.ofNat 32 (p * 2 ^ 11)
    (∀ (k : Nat) (freq : Rat) (smp : Sample), resolves k freq → sampleStore s.stores k = some smp → smp.length ≠ 0 →
      let start := position (smp.offset % 2 ^ 21)
      exec (.noteOn (chanByte i) note) s = .next
        { s with
          code := some 1
          ch := s.ch.set i
            { x with
              freqOffs := rateOffset s.cfg freq smp.centerRate n
              pcm :=
                { index := some k
                  start := start
                  endAddr := start + position (smp.length - 1)
                  loopStart := (start + position smp.loopStart) &&& s.cfg.loopStartMask
                  loopEnd := (start + position (max smp.loopEnd 1 - 1)) &&& s.cfg.loopEndMask
                  length := smp.length
                  bank := BitVec.ofNat 2 (smp.offset / 2 ^ 21)
                  reversed := smp.reversed
                  loopMode := smp.loopMode }
              filter := ins.filterPreset
              env := ins.envPreset } }) ∧
    ((∀ (k : Nat) (freq : Rat) (smp : Sample), resolves k freq → sampleStore s.stores k = some smp → smp.length = 0) →
      exec (.noteOn (chanByte i) note) s = .next
        { s with
          code := some 1
          ch := s.ch.set i
            { x with pcm := { c.pcm with index := none }, filter := s.cfg.filterDefault
                     env := s.cfg.envDefault } })

/-- 44_command_dispatcher.md R253, R254, R257, R268. THE MODEL'S CHOICE (log 15), not these rules: INSTRUMENT reads
its value unsigned for every word, where 30_encoding.md R104 calls a value two's complement. -/
def Obligations.PlainCommands : Prop :=
  ∀ (i : ChIx) (value : Word) (cmd : Cmd) (s : State),
    let c := s.chan i
    exec (.noteOff (chanByte i)) s =
      .next { s with code := some 1, ch := s.ch.set i { c with active := false, keyOff := true } } ∧
    exec (.instrument (chanByte i) value) s =
      .next { s with code := some 1, ch := s.ch.set i { c with ins := value.toNat } } ∧
    exec (.pitch (chanByte i) value) s =
      .next { s with
              code := some 1
              ch := s.ch.set i (if c.pitch = value.toInt then c
                else { c with pitch := value.toInt, freqChanged := true }) } ∧
    exec (.nopCmd cmd) s = .next { s with code := some 1 }

/-- 44_command_dispatcher.md R260, R261, R262: a filter field and its flag, only on change. -/
def Obligations.FilterCommands : Prop :=
  ∀ (i : ChIx) (value : Word) (s : State),
    let c := s.chan i
    let mode : BitVec 2 := value.setWidth 2
    let k : Half := value.setWidth 16
    exec (.filterMode (chanByte i) value) s =
      .next { s with
              code := some 1
              ch := s.ch.set i (if c.filter.mode = mode then c
                else { c with filter.mode := mode, filterChanged.mode := true }) } ∧
    exec (.filterK1 (chanByte i) value) s =
      .next { s with
              code := some 1
              ch := s.ch.set i (if c.filter.k1 = k then c
                else { c with filter.k1 := k, filterChanged.k1 := true }) } ∧
    exec (.filterK2 (chanByte i) value) s =
      .next { s with
              code := some 1
              ch := s.ch.set i (if c.filter.k2 = k then c
                else { c with filter.k2 := k, filterChanged.k2 := true }) }

/-- 44_command_dispatcher.md R263 to R267: an envelope field and its flag, only on change; a slow bit shares the flag
of its ramp. -/
def Obligations.EnvelopeCommands : Prop :=
  ∀ (i : ChIx) (value value2 : Word) (s : State),
    let c := s.chan i
    let r : Byte := value.setWidth 8
    let slow := value2.getLsbD 0
    exec (.envCount (chanByte i) value) s =
      .next { s with
              code := some 1
              ch := s.ch.set i (if c.env.ecount = value.setWidth 16 then c
                else { c with env.ecount := value.setWidth 16, envChanged.ecount := true }) } ∧
    exec (.envLvramp (chanByte i) value) s =
      .next { s with
              code := some 1
              ch := s.ch.set i (if c.env.lVRamp = r then c
                else { c with env.lVRamp := r, envChanged.lVRamp := true }) } ∧
    exec (.envRvramp (chanByte i) value) s =
      .next { s with
              code := some 1
              ch := s.ch.set i (if c.env.rVRamp = r then c
                else { c with env.rVRamp := r, envChanged.rVRamp := true }) } ∧
    exec (.envK1ramp (chanByte i) value value2) s =
      .next { s with
              code := some 1
              ch := s.ch.set i (if c.env.k1Ramp = r ∧ c.env.k1Slow = slow then c
                else { c with env.k1Ramp := r, env.k1Slow := slow, envChanged.k1Ramp := true }) } ∧
    exec (.envK2ramp (chanByte i) value value2) s =
      .next { s with
              code := some 1
              ch := s.ch.set i (if c.env.k2Ramp = r ∧ c.env.k2Slow = slow then c
                else { c with env.k2Ramp := r, env.k2Slow := slow, envChanged.k2Ramp := true }) }

/-- 44_command_dispatcher.md R255, R256: the clamped operands, the scaled volumes (257 times the operand), the flag only
on change. THE MODEL'S CHOICE (log 15), not these rules: PANNING reads value2 as two's complement. -/
def Obligations.VolumeAndPanning : Prop :=
  ∀ (i : ChIx) (value value2 : Word) (s : State),
    let c := s.chan i
    let v : Byte := BitVec.ofInt 8 (clampInt value.toInt 0 255)
    let w : Byte := BitVec.ofInt 8 (clampInt value2.toInt 0 255)
    let scaled (b : Byte) : Half := BitVec.ofNat 16 (257 * b.toNat)
    exec (.volume (chanByte i) value) s =
      .next { s with
              code := some 1
              ch := s.ch.set i (if c.vol = v then c
                else { c with vol := v, outVol := scaled v, volChanged := true }) } ∧
    exec (.panning (chanByte i) value value2) s =
      .next { s with
              code := some 1
              ch := s.ch.set i (if c.lVol = v ∧ c.rVol = w then c
                else { c with lVol := v, rVol := w, outLVol := scaled v, outRVol := scaled w
                              volChanged := true }) }

/-- 44_command_dispatcher.md R258: one portamento call; and with a positive speed, n calls that together cover the
distance end at the target with result 2. THE MODEL'S CHOICE (log 15), not this rule: the target note is value2 read as
two's complement. -/
def Obligations.PortaResult : Prop :=
  ∀ (i : ChIx) (speed target : Word) (s : State),
    let c := s.chan i
    let dest := noteFreq s.cfg target.toInt
    let up := c.baseFreq + speed.toInt
    let down := c.baseFreq - speed.toInt
    let after (freq : Int) (reached : Bool) : State :=
      { s with
        code := some (if reached then 2 else 1)
        ch := s.ch.set i { c with baseFreq := freq, freqChanged := true, inPorta := !reached } }
    (c.baseFreq < dest → dest ≤ up → exec (.porta (chanByte i) speed target) s = .next (after dest true)) ∧
    (c.baseFreq < dest → up < dest → exec (.porta (chanByte i) speed target) s = .next (after up false)) ∧
    (dest ≤ c.baseFreq → down ≤ dest → exec (.porta (chanByte i) speed target) s = .next (after dest true)) ∧
    (dest ≤ c.baseFreq → dest < down → exec (.porta (chanByte i) speed target) s = .next (after down false)) ∧
    ∀ n : Nat, 0 < speed.toInt → 0 < n → dest - c.baseFreq ≤ n * speed.toInt →
      c.baseFreq - dest ≤ n * speed.toInt →
      ∃ t, runAll (List.replicate n (.porta (chanByte i) speed target)) s = .next t ∧
        (t.chan i).baseFreq = dest ∧ (t.chan i).inPorta = false ∧ t.code = some 2

/-- 44_command_dispatcher.md R259: a seek inside the assigned sample queues the accumulator write at once; any other is
ignored. -/
def Obligations.SamplePosResult : Prop :=
  ∀ (i : ChIx) (value : Word) (s : State),
    let p := (s.chan i).pcm
    let offset : Word := BitVec.ofNat 32 (value.toInt.toNat * 2 ^ 11)
    let inside := p.index ≠ none ∧ 0 ≤ value.toInt ∧ value.toInt < p.length
    (inside →
      ∃ u, exec (regWrite (pgB s.cfg i) s.cfg.regAccum
          (if p.reversed then p.endAddr - offset else p.start + offset)) s = .next u ∧
        exec (.samplePos (chanByte i) value) s = .next { u with code := some 1 }) ∧
    (¬ inside → exec (.samplePos (chanByte i) value) s = .next { s with code := some 1 })

/-- 44_command_dispatcher.md R250, R268: a command touches its own channel alone, answers 1, or 2 for PORTA, and only
SAMPLE_POS reaches the queue and the shadow page; an unrecognised kind changes no state. -/
def Obligations.CommandsTouchOnlyTheirChannel : Prop :=
  ∀ (cmd : Cmd) (s t : State), exec (.dispatch cmd) s = .next t →
    (∀ j : ChIx, j.val ≠ cmd.channel.toNat → t.chan j = s.chan j) ∧
    (t.code = some 1 ∨ t.code = some 2 ∧ cmd.kind = 0x07) ∧
    { t with ch := s.ch, code := s.code, lq := s.lq, curPage := s.curPage } = s ∧
    (cmd.kind ≠ 0x08 → t.lq = s.lq ∧ t.curPage = s.curPage) ∧
    (cmd.kind ∉ knownKinds → t = { s with code := some 1 })

/-- 10_state.md R38 for the commands that set a flag on change: the same command once more, the flags meanwhile cleared,
changes nothing and sets none. -/
def Obligations.RepeatSetsNoFlag : Prop :=
  ∀ (cmd : Cmd) (s t : State),
    cmd.kind ∈ ([0x04, 0x05, 0x06, 0x10, 0x11, 0x12, 0x18, 0x19, 0x1A, 0x1B, 0x1C] : List Byte) →
    exec (.dispatch cmd) s = .next t →
    let u : State := { t with ch := t.ch.map Chan.clearDirty }
    exec (.dispatch cmd) u = .next u

/-! ### Host operations -/

/-- 45_device_facade.md R301: DISPATCH is the command its kind selects; of a recognised kind it is refused exactly when
the channel does not exist. -/
def Obligations.DispatchIsItsCommand : Prop :=
  ∀ (cmd : Cmd) (s : State),
    exec (.dispatch cmd) s = exec (decodeCmd cmd) s ∧
    (cmd.kind ∈ knownKinds → 31 < cmd.channel.toNat → exec (.dispatch cmd) s = .refused .channelOutOfRange) ∧
    (cmd.kind ∉ knownKinds ∨ cmd.channel.toNat ≤ 31 → ∃ t, exec (.dispatch cmd) s = .next t)

/-- 45_device_facade.md R295, 00_scope.md R9: no sample leaves everything but the list of pairs; one sample is the
expansion, one device tick with its events in order, one clamped pair; n + k samples are n samples and then k. What
taking a tick is: the one scripted, or else, with nothing scripted, whatever tick the device makes. THE MODEL'S CHOICE,
not these rules: that ticks are scripted or free in this way (log 8), and that each GENERATE, one of no sample too,
first empties the list of the last one's pairs (log 14). -/
def Obligations.GenerateResult : Prop :=
  (∀ (offset : Word) (s : State), exec (.generate offset 0) s = .next { s with samples := [] }) ∧
  (∀ (offset : Word) (s : State),
    let d := s.nextTick
    ∃ u, runAll (d.events.map eventInstr)
        { s.takeTick with samples := [], lq := [], pq := s.pq ++ s.lq.flatMap expandLT } = .next u ∧
      exec (.generate offset 1) s =
        .next { u with samples :=
          [⟨offset.toNat, BitVec.ofInt 16 (clampInt d.left (-32768) 32767),
            BitVec.ofInt 16 (clampInt d.right (-32768) 32767)⟩] }) ∧
  (∀ s : State,
    (∀ d rest, s.tickIn = d :: rest →
      s.nextTick = d ∧ s.takeTick = { s with tickIn := rest, trace := s.trace ++ [.tick] }) ∧
    (s.tickIn = [] →
      s.nextTick = Config.devTick s.freeCtr ∧
        s.takeTick = { s with freeCtr := s.freeCtr + 1, trace := s.trace ++ [.tick] })) ∧
  ∀ (offset n k : Word) (s : State), offset.toNat + n.toNat + k.toNat < 2 ^ 32 →
    ∃ t u, exec (.generate offset n) s = .next t ∧ exec (.generate (offset + n) k) t = .next u ∧
      t.samples.length = n.toNat ∧
      exec (.generate offset (n + k)) s = .next { u with samples := t.samples ++ u.samples }

/-- 45_device_facade.md R302, R303, R304. -/
def Obligations.SetchanMuteResync : Prop :=
  (∀ (n : Word) (s : State),
    let m : BitVec 5 := n.setWidth 5
    ∃ t, exec (.pgwritem 0 s.cfg.pmGlobal (s.cfg.regActv.setWidth 32) (m.setWidth 32) allBits 0)
        { s with initChanMax := m, chanMax := m } = .next t ∧ exec (.setchan n) s = .next t) ∧
  (∀ (i : ChIx) (b : Bool) (s : State),
    exec (.mute (BitVec.ofNat 32 i.val) b) s =
      .next { s with muted := s.muted.set i b, trace := s.trace ++ [.setMute i b] }) ∧
  (∀ (index : Word) (b : Bool) (s : State), 31 < index.toNat →
    exec (.mute index b) s = .refused .channelOutOfRange) ∧
  ∀ s : State, exec .resync s =
    .next { s with ch := s.ch.map fun c =>
      { c with volChanged := true, freqChanged := true, filterChanged := ⟨true, true, true⟩
               envChanged := ⟨true, true, true, true, true⟩ } }

/-- 45_device_facade.md R305, R306: raw writes join the back of LQ as full-mask writes without delay, in list order,
unless writes are skipped; an address above 15 refuses the whole operation. -/
def Obligations.RawWrites : Prop :=
  (∀ (a : BitVec 4) (v : Word) (s : State),
    exec (.rawwrite (a.setWidth 32) v) s =
      .next (if s.skipWrites then s else { s with lq := s.lq ++ [⟨.write v, a, allBits, 0⟩] })) ∧
  (∀ (addr v : Word) (s : State), 15 < addr.toNat → exec (.rawwrite addr v) s = .refused .addressOutOfRange) ∧
  (∀ (ps : List (BitVec 4 × Word)) (s : State),
    exec (.rawbatch (ps.map fun p => (p.1.setWidth 32, p.2))) s =
      .next (if s.skipWrites then s
        else { s with lq := s.lq ++ ps.map fun p => ⟨.write p.2, p.1, allBits, 0⟩ })) ∧
  ∀ (ps : List (Word × Word)) (s : State), (∃ p ∈ ps, 15 < p.1.toNat) →
    exec (.rawbatch ps) s = .refused .addressOutOfRange

/-- 45_device_facade.md R308, R309: the two settings and the effect name, each alone. -/
def Obligations.SettingsAndEffectName : Prop :=
  ∀ (b : Bool) (n : Word) (s : State),
    exec (.setskip b) s = .next { s with skipWrites := b } ∧
    exec (.setlog b) s = .next { s with logEnable := b } ∧
    exec (.effectname n) s = .next { s with effectName := effectNameTable s.cfg n.toNat }

/-- 45_device_facade.md R307: 8192 bytes, page by page, register by register, most significant byte first; nothing else
is written, and a second snapshot answers the same (20_memory.md R78). What the device answers for a register is
`regsRead`. THE MODEL'S CHOICE (log 6, 7), not these rules: what that answer is, a free value of the calls made to the
chip, or the bytes of the register pool of 93 U4. -/
def Obligations.SnapshotLayout : Prop :=
  ∀ s : State, ∃ t, exec .snapshot s = .next t ∧ { t with snapshot := s.snapshot } = s ∧
    exec .snapshot t = .next t ∧
    t.snapshot.length = 8192 ∧
    (∀ (page reg : Nat) (b : BitVec 2), page < 128 → reg < 16 →
      t.snapshot[((page * 16) + reg) * 4 + b.toNat]? = some (byteOf (s.regsRead page reg) b)) ∧
    (s.cfg.device = .pool → ∀ k, k < 8192 → t.snapshot[k]? = some (Memory.read s.pool k))

/-- 95_test_vectors.md S7 (45_device_facade.md R305, R307): on the register pool of 93 U4, a raw write from a drained
state, one sample of at least four edges, and a snapshot: the four bytes stand at their page, register and byte, every
other byte of the snapshot as it was in the pool. THE MODEL'S CHOICE: the pool and its page register (log 6, 7) and the
scripted tick (log 8). -/
def Obligations.RawWriteRoundTrip : Prop :=
  ∀ (s : State) (a : BitVec 4) (v : Word) (n : Nat) (d : DevTick) (rest : List DevTick),
    s.cfg.device = .pool → Memory.wf s.pool = true → s.drained → s.skipWrites = false → s.wasRead = false →
    s.tickIn = d :: rest → d.events = List.replicate n .risingEdge → 4 ≤ n →
    ∃ t, runAll [.rawwrite (a.setWidth 32) v, .generate 0 1, .snapshot] s = .next t ∧
      (∀ b : BitVec 2,
        t.snapshot[((s.devPage.toNat * 16) + a.toNat) * 4 + b.toNat]? = some (byteOf v b)) ∧
      ∀ k, k < 8192 → k / 4 ≠ s.devPage.toNat * 16 + a.toNat →
        t.snapshot[k]? = some (Memory.read s.pool k)

end
end

