-- ==== Sys2Proof/Laws/State.lean ====
section
/-! SUPPORT. One lemma per field per state update, each true by unfolding; no later proof unfolds an update. -/

namespace Sys2Proof.Machine

/-! ### setChan -/

@[simp] theorem setChan_lq (s : State) (i : ChIx) (c : Chan) : (s.setChan i c).lq = s.lq := rfl
@[simp] theorem setChan_pq (s : State) (i : ChIx) (c : Chan) : (s.setChan i c).pq = s.pq := rfl
@[simp] theorem setChan_cycle (s : State) (i : ChIx) (c : Chan) : (s.setChan i c).cycle = s.cycle := rfl
@[simp] theorem setChan_wasRead (s : State) (i : ChIx) (c : Chan) : (s.setChan i c).wasRead = s.wasRead := rfl
@[simp] theorem setChan_holdVal (s : State) (i : ChIx) (c : Chan) : (s.setChan i c).holdVal = s.holdVal := rfl
@[simp] theorem setChan_holdValid (s : State) (i : ChIx) (c : Chan) :
    (s.setChan i c).holdValid = s.holdValid := rfl
@[simp] theorem setChan_irqLatched (s : State) (i : ChIx) (c : Chan) :
    (s.setChan i c).irqLatched = s.irqLatched := rfl
@[simp] theorem setChan_acc (s : State) (i : ChIx) (c : Chan) : (s.setChan i c).acc = s.acc := rfl
@[simp] theorem setChan_skipWrites (s : State) (i : ChIx) (c : Chan) :
    (s.setChan i c).skipWrites = s.skipWrites := rfl
@[simp] theorem setChan_logEnable (s : State) (i : ChIx) (c : Chan) :
    (s.setChan i c).logEnable = s.logEnable := rfl
@[simp] theorem setChan_writeLog (s : State) (i : ChIx) (c : Chan) :
    (s.setChan i c).writeLog = s.writeLog := rfl
@[simp] theorem setChan_chanMax (s : State) (i : ChIx) (c : Chan) : (s.setChan i c).chanMax = s.chanMax := rfl
@[simp] theorem setChan_initChanMax (s : State) (i : ChIx) (c : Chan) :
    (s.setChan i c).initChanMax = s.initChanMax := rfl
@[simp] theorem setChan_muted (s : State) (i : ChIx) (c : Chan) : (s.setChan i c).muted = s.muted := rfl
@[simp] theorem setChan_curPage (s : State) (i : ChIx) (c : Chan) : (s.setChan i c).curPage = s.curPage := rfl
@[simp] theorem setChan_ch (s : State) (i : ChIx) (c : Chan) : (s.setChan i c).ch = s.ch.set i c := rfl
@[simp] theorem setChan_cfg (s : State) (i : ChIx) (c : Chan) : (s.setChan i c).cfg = s.cfg := rfl
@[simp] theorem setChan_port (s : State) (i : ChIx) (c : Chan) : (s.setChan i c).port = s.port := rfl
@[simp] theorem setChan_tickIn (s : State) (i : ChIx) (c : Chan) : (s.setChan i c).tickIn = s.tickIn := rfl
@[simp] theorem setChan_macroIn (s : State) (i : ChIx) (c : Chan) : (s.setChan i c).macroIn = s.macroIn := rfl
@[simp] theorem setChan_freeCtr (s : State) (i : ChIx) (c : Chan) : (s.setChan i c).freeCtr = s.freeCtr := rfl
@[simp] theorem setChan_stores (s : State) (i : ChIx) (c : Chan) : (s.setChan i c).stores = s.stores := rfl
@[simp] theorem setChan_code (s : State) (i : ChIx) (c : Chan) : (s.setChan i c).code = s.code := rfl
@[simp] theorem setChan_samples (s : State) (i : ChIx) (c : Chan) : (s.setChan i c).samples = s.samples := rfl
@[simp] theorem setChan_snapshot (s : State) (i : ChIx) (c : Chan) :
    (s.setChan i c).snapshot = s.snapshot := rfl
@[simp] theorem setChan_effectName (s : State) (i : ChIx) (c : Chan) :
    (s.setChan i c).effectName = s.effectName := rfl
@[simp] theorem setChan_trace (s : State) (i : ChIx) (c : Chan) : (s.setChan i c).trace = s.trace := rfl
@[simp] theorem setChan_edgeNo (s : State) (i : ChIx) (c : Chan) : (s.setChan i c).edgeNo = s.edgeNo := rfl
@[simp] theorem setChan_pool (s : State) (i : ChIx) (c : Chan) : (s.setChan i c).pool = s.pool := rfl
@[simp] theorem setChan_devPage (s : State) (i : ChIx) (c : Chan) : (s.setChan i c).devPage = s.devPage := rfl

/-! ### pushLQ -/

@[simp] theorem pushLQ_lq (s : State) (w : LT) : (s.pushLQ w).lq = s.lq ++ [w] := rfl
@[simp] theorem pushLQ_pq (s : State) (w : LT) : (s.pushLQ w).pq = s.pq := rfl
@[simp] theorem pushLQ_cycle (s : State) (w : LT) : (s.pushLQ w).cycle = s.cycle := rfl
@[simp] theorem pushLQ_wasRead (s : State) (w : LT) : (s.pushLQ w).wasRead = s.wasRead := rfl
@[simp] theorem pushLQ_holdVal (s : State) (w : LT) : (s.pushLQ w).holdVal = s.holdVal := rfl
@[simp] theorem pushLQ_holdValid (s : State) (w : LT) : (s.pushLQ w).holdValid = s.holdValid := rfl
@[simp] theorem pushLQ_irqLatched (s : State) (w : LT) : (s.pushLQ w).irqLatched = s.irqLatched := rfl
@[simp] theorem pushLQ_acc (s : State) (w : LT) : (s.pushLQ w).acc = s.acc := rfl
@[simp] theorem pushLQ_skipWrites (s : State) (w : LT) : (s.pushLQ w).skipWrites = s.skipWrites := rfl
@[simp] theorem pushLQ_logEnable (s : State) (w : LT) : (s.pushLQ w).logEnable = s.logEnable := rfl
@[simp] theorem pushLQ_writeLog (s : State) (w : LT) : (s.pushLQ w).writeLog = s.writeLog := rfl
@[simp] theorem pushLQ_chanMax (s : State) (w : LT) : (s.pushLQ w).chanMax = s.chanMax := rfl
@[simp] theorem pushLQ_initChanMax (s : State) (w : LT) : (s.pushLQ w).initChanMax = s.initChanMax := rfl
@[simp] theorem pushLQ_muted (s : State) (w : LT) : (s.pushLQ w).muted = s.muted := rfl
@[simp] theorem pushLQ_curPage (s : State) (w : LT) : (s.pushLQ w).curPage = s.curPage := rfl
@[simp] theorem pushLQ_ch (s : State) (w : LT) : (s.pushLQ w).ch = s.ch := rfl
@[simp] theorem pushLQ_cfg (s : State) (w : LT) : (s.pushLQ w).cfg = s.cfg := rfl
@[simp] theorem pushLQ_port (s : State) (w : LT) : (s.pushLQ w).port = s.port := rfl
@[simp] theorem pushLQ_tickIn (s : State) (w : LT) : (s.pushLQ w).tickIn = s.tickIn := rfl
@[simp] theorem pushLQ_macroIn (s : State) (w : LT) : (s.pushLQ w).macroIn = s.macroIn := rfl
@[simp] theorem pushLQ_freeCtr (s : State) (w : LT) : (s.pushLQ w).freeCtr = s.freeCtr := rfl
@[simp] theorem pushLQ_stores (s : State) (w : LT) : (s.pushLQ w).stores = s.stores := rfl
@[simp] theorem pushLQ_code (s : State) (w : LT) : (s.pushLQ w).code = s.code := rfl
@[simp] theorem pushLQ_samples (s : State) (w : LT) : (s.pushLQ w).samples = s.samples := rfl
@[simp] theorem pushLQ_snapshot (s : State) (w : LT) : (s.pushLQ w).snapshot = s.snapshot := rfl
@[simp] theorem pushLQ_effectName (s : State) (w : LT) : (s.pushLQ w).effectName = s.effectName := rfl
@[simp] theorem pushLQ_trace (s : State) (w : LT) : (s.pushLQ w).trace = s.trace := rfl
@[simp] theorem pushLQ_edgeNo (s : State) (w : LT) : (s.pushLQ w).edgeNo = s.edgeNo := rfl
@[simp] theorem pushLQ_pool (s : State) (w : LT) : (s.pushLQ w).pool = s.pool := rfl
@[simp] theorem pushLQ_devPage (s : State) (w : LT) : (s.pushLQ w).devPage = s.devPage := rfl

/-! ### pushPQ -/

@[simp] theorem pushPQ_lq (s : State) (w : PT) : (s.pushPQ w).lq = s.lq := rfl
@[simp] theorem pushPQ_pq (s : State) (w : PT) : (s.pushPQ w).pq = s.pq ++ [w] := rfl
@[simp] theorem pushPQ_cycle (s : State) (w : PT) : (s.pushPQ w).cycle = s.cycle := rfl
@[simp] theorem pushPQ_wasRead (s : State) (w : PT) : (s.pushPQ w).wasRead = s.wasRead := rfl
@[simp] theorem pushPQ_holdVal (s : State) (w : PT) : (s.pushPQ w).holdVal = s.holdVal := rfl
@[simp] theorem pushPQ_holdValid (s : State) (w : PT) : (s.pushPQ w).holdValid = s.holdValid := rfl
@[simp] theorem pushPQ_irqLatched (s : State) (w : PT) : (s.pushPQ w).irqLatched = s.irqLatched := rfl
@[simp] theorem pushPQ_acc (s : State) (w : PT) : (s.pushPQ w).acc = s.acc := rfl
@[simp] theorem pushPQ_skipWrites (s : State) (w : PT) : (s.pushPQ w).skipWrites = s.skipWrites := rfl
@[simp] theorem pushPQ_logEnable (s : State) (w : PT) : (s.pushPQ w).logEnable = s.logEnable := rfl
@[simp] theorem pushPQ_writeLog (s : State) (w : PT) : (s.pushPQ w).writeLog = s.writeLog := rfl
@[simp] theorem pushPQ_chanMax (s : State) (w : PT) : (s.pushPQ w).chanMax = s.chanMax := rfl
@[simp] theorem pushPQ_initChanMax (s : State) (w : PT) : (s.pushPQ w).initChanMax = s.initChanMax := rfl
@[simp] theorem pushPQ_muted (s : State) (w : PT) : (s.pushPQ w).muted = s.muted := rfl
@[simp] theorem pushPQ_curPage (s : State) (w : PT) : (s.pushPQ w).curPage = s.curPage := rfl
@[simp] theorem pushPQ_ch (s : State) (w : PT) : (s.pushPQ w).ch = s.ch := rfl
@[simp] theorem pushPQ_cfg (s : State) (w : PT) : (s.pushPQ w).cfg = s.cfg := rfl
@[simp] theorem pushPQ_port (s : State) (w : PT) : (s.pushPQ w).port = s.port := rfl
@[simp] theorem pushPQ_tickIn (s : State) (w : PT) : (s.pushPQ w).tickIn = s.tickIn := rfl
@[simp] theorem pushPQ_macroIn (s : State) (w : PT) : (s.pushPQ w).macroIn = s.macroIn := rfl
@[simp] theorem pushPQ_freeCtr (s : State) (w : PT) : (s.pushPQ w).freeCtr = s.freeCtr := rfl
@[simp] theorem pushPQ_stores (s : State) (w : PT) : (s.pushPQ w).stores = s.stores := rfl
@[simp] theorem pushPQ_code (s : State) (w : PT) : (s.pushPQ w).code = s.code := rfl
@[simp] theorem pushPQ_samples (s : State) (w : PT) : (s.pushPQ w).samples = s.samples := rfl
@[simp] theorem pushPQ_snapshot (s : State) (w : PT) : (s.pushPQ w).snapshot = s.snapshot := rfl
@[simp] theorem pushPQ_effectName (s : State) (w : PT) : (s.pushPQ w).effectName = s.effectName := rfl
@[simp] theorem pushPQ_trace (s : State) (w : PT) : (s.pushPQ w).trace = s.trace := rfl
@[simp] theorem pushPQ_edgeNo (s : State) (w : PT) : (s.pushPQ w).edgeNo = s.edgeNo := rfl
@[simp] theorem pushPQ_pool (s : State) (w : PT) : (s.pushPQ w).pool = s.pool := rfl
@[simp] theorem pushPQ_devPage (s : State) (w : PT) : (s.pushPQ w).devPage = s.devPage := rfl

/-! ### expand -/

@[simp] theorem expand_lq (s : State) : (s.expand).lq = [] := rfl
@[simp] theorem expand_pq (s : State) : (s.expand).pq = s.pq ++ s.lq.flatMap expandLT := rfl
@[simp] theorem expand_cycle (s : State) : (s.expand).cycle = s.cycle := rfl
@[simp] theorem expand_wasRead (s : State) : (s.expand).wasRead = s.wasRead := rfl
@[simp] theorem expand_holdVal (s : State) : (s.expand).holdVal = s.holdVal := rfl
@[simp] theorem expand_holdValid (s : State) : (s.expand).holdValid = s.holdValid := rfl
@[simp] theorem expand_irqLatched (s : State) : (s.expand).irqLatched = s.irqLatched := rfl
@[simp] theorem expand_acc (s : State) : (s.expand).acc = s.acc := rfl
@[simp] theorem expand_skipWrites (s : State) : (s.expand).skipWrites = s.skipWrites := rfl
@[simp] theorem expand_logEnable (s : State) : (s.expand).logEnable = s.logEnable := rfl
@[simp] theorem expand_writeLog (s : State) : (s.expand).writeLog = s.writeLog := rfl
@[simp] theorem expand_chanMax (s : State) : (s.expand).chanMax = s.chanMax := rfl
@[simp] theorem expand_initChanMax (s : State) : (s.expand).initChanMax = s.initChanMax := rfl
@[simp] theorem expand_muted (s : State) : (s.expand).muted = s.muted := rfl
@[simp] theorem expand_curPage (s : State) : (s.expand).curPage = s.curPage := rfl
@[simp] theorem expand_ch (s : State) : (s.expand).ch = s.ch := rfl
@[simp] theorem expand_cfg (s : State) : (s.expand).cfg = s.cfg := rfl
@[simp] theorem expand_port (s : State) : (s.expand).port = s.port := rfl
@[simp] theorem expand_tickIn (s : State) : (s.expand).tickIn = s.tickIn := rfl
@[simp] theorem expand_macroIn (s : State) : (s.expand).macroIn = s.macroIn := rfl
@[simp] theorem expand_freeCtr (s : State) : (s.expand).freeCtr = s.freeCtr := rfl
@[simp] theorem expand_stores (s : State) : (s.expand).stores = s.stores := rfl
@[simp] theorem expand_code (s : State) : (s.expand).code = s.code := rfl
@[simp] theorem expand_samples (s : State) : (s.expand).samples = s.samples := rfl
@[simp] theorem expand_snapshot (s : State) : (s.expand).snapshot = s.snapshot := rfl
@[simp] theorem expand_effectName (s : State) : (s.expand).effectName = s.effectName := rfl
@[simp] theorem expand_trace (s : State) : (s.expand).trace = s.trace := rfl
@[simp] theorem expand_edgeNo (s : State) : (s.expand).edgeNo = s.edgeNo := rfl
@[simp] theorem expand_pool (s : State) : (s.expand).pool = s.pool := rfl
@[simp] theorem expand_devPage (s : State) : (s.expand).devPage = s.devPage := rfl

/-! ### note -/

@[simp] theorem note_lq (s : State) (c : DevCall) : (s.note c).lq = s.lq := rfl
@[simp] theorem note_pq (s : State) (c : DevCall) : (s.note c).pq = s.pq := rfl
@[simp] theorem note_cycle (s : State) (c : DevCall) : (s.note c).cycle = s.cycle := rfl
@[simp] theorem note_wasRead (s : State) (c : DevCall) : (s.note c).wasRead = s.wasRead := rfl
@[simp] theorem note_holdVal (s : State) (c : DevCall) : (s.note c).holdVal = s.holdVal := rfl
@[simp] theorem note_holdValid (s : State) (c : DevCall) : (s.note c).holdValid = s.holdValid := rfl
@[simp] theorem note_irqLatched (s : State) (c : DevCall) : (s.note c).irqLatched = s.irqLatched := rfl
@[simp] theorem note_acc (s : State) (c : DevCall) : (s.note c).acc = s.acc := rfl
@[simp] theorem note_skipWrites (s : State) (c : DevCall) : (s.note c).skipWrites = s.skipWrites := rfl
@[simp] theorem note_logEnable (s : State) (c : DevCall) : (s.note c).logEnable = s.logEnable := rfl
@[simp] theorem note_writeLog (s : State) (c : DevCall) : (s.note c).writeLog = s.writeLog := rfl
@[simp] theorem note_chanMax (s : State) (c : DevCall) : (s.note c).chanMax = s.chanMax := rfl
@[simp] theorem note_initChanMax (s : State) (c : DevCall) : (s.note c).initChanMax = s.initChanMax := rfl
@[simp] theorem note_muted (s : State) (c : DevCall) : (s.note c).muted = s.muted := rfl
@[simp] theorem note_curPage (s : State) (c : DevCall) : (s.note c).curPage = s.curPage := rfl
@[simp] theorem note_ch (s : State) (c : DevCall) : (s.note c).ch = s.ch := rfl
@[simp] theorem note_cfg (s : State) (c : DevCall) : (s.note c).cfg = s.cfg := rfl
@[simp] theorem note_port (s : State) (c : DevCall) : (s.note c).port = s.port := rfl
@[simp] theorem note_tickIn (s : State) (c : DevCall) : (s.note c).tickIn = s.tickIn := rfl
@[simp] theorem note_macroIn (s : State) (c : DevCall) : (s.note c).macroIn = s.macroIn := rfl
@[simp] theorem note_freeCtr (s : State) (c : DevCall) : (s.note c).freeCtr = s.freeCtr := rfl
@[simp] theorem note_stores (s : State) (c : DevCall) : (s.note c).stores = s.stores := rfl
@[simp] theorem note_code (s : State) (c : DevCall) : (s.note c).code = s.code := rfl
@[simp] theorem note_samples (s : State) (c : DevCall) : (s.note c).samples = s.samples := rfl
@[simp] theorem note_snapshot (s : State) (c : DevCall) : (s.note c).snapshot = s.snapshot := rfl
@[simp] theorem note_effectName (s : State) (c : DevCall) : (s.note c).effectName = s.effectName := rfl
@[simp] theorem note_trace (s : State) (c : DevCall) : (s.note c).trace = s.trace ++ [c] := rfl
@[simp] theorem note_edgeNo (s : State) (c : DevCall) : (s.note c).edgeNo = s.edgeNo := rfl
@[simp] theorem note_pool (s : State) (c : DevCall) : (s.note c).pool = s.pool := rfl
@[simp] theorem note_devPage (s : State) (c : DevCall) : (s.note c).devPage = s.devPage := rfl

/-! ### memRead -/

@[simp] theorem memRead_lq (s : State) (a : BitVec 6) (b : Byte) : (s.memRead a b).lq = s.lq := rfl
@[simp] theorem memRead_pq (s : State) (a : BitVec 6) (b : Byte) : (s.memRead a b).pq = s.pq := rfl
@[simp] theorem memRead_cycle (s : State) (a : BitVec 6) (b : Byte) : (s.memRead a b).cycle = s.cycle := rfl
@[simp] theorem memRead_wasRead (s : State) (a : BitVec 6) (b : Byte) :
    (s.memRead a b).wasRead = s.wasRead := rfl
@[simp] theorem memRead_holdVal (s : State) (a : BitVec 6) (b : Byte) :
    (s.memRead a b).holdVal = s.holdVal := rfl
@[simp] theorem memRead_holdValid (s : State) (a : BitVec 6) (b : Byte) :
    (s.memRead a b).holdValid = s.holdValid := rfl
@[simp] theorem memRead_irqLatched (s : State) (a : BitVec 6) (b : Byte) :
    (s.memRead a b).irqLatched = s.irqLatched := rfl
@[simp] theorem memRead_acc (s : State) (a : BitVec 6) (b : Byte) : (s.memRead a b).acc = s.acc := rfl
@[simp] theorem memRead_skipWrites (s : State) (a : BitVec 6) (b : Byte) :
    (s.memRead a b).skipWrites = s.skipWrites := rfl
@[simp] theorem memRead_logEnable (s : State) (a : BitVec 6) (b : Byte) :
    (s.memRead a b).logEnable = s.logEnable := rfl
@[simp] theorem memRead_writeLog (s : State) (a : BitVec 6) (b : Byte) :
    (s.memRead a b).writeLog = s.writeLog := rfl
@[simp] theorem memRead_chanMax (s : State) (a : BitVec 6) (b : Byte) :
    (s.memRead a b).chanMax = s.chanMax := rfl
@[simp] theorem memRead_initChanMax (s : State) (a : BitVec 6) (b : Byte) :
    (s.memRead a b).initChanMax = s.initChanMax := rfl
@[simp] theorem memRead_muted (s : State) (a : BitVec 6) (b : Byte) : (s.memRead a b).muted = s.muted := rfl
@[simp] theorem memRead_curPage (s : State) (a : BitVec 6) (b : Byte) :
    (s.memRead a b).curPage = s.curPage := rfl
@[simp] theorem memRead_ch (s : State) (a : BitVec 6) (b : Byte) : (s.memRead a b).ch = s.ch := rfl
@[simp] theorem memRead_cfg (s : State) (a : BitVec 6) (b : Byte) : (s.memRead a b).cfg = s.cfg := rfl
@[simp] theorem memRead_port (s : State) (a : BitVec 6) (b : Byte) : (s.memRead a b).port = s.port := rfl
@[simp] theorem memRead_tickIn (s : State) (a : BitVec 6) (b : Byte) :
    (s.memRead a b).tickIn = s.tickIn := rfl
@[simp] theorem memRead_macroIn (s : State) (a : BitVec 6) (b : Byte) :
    (s.memRead a b).macroIn = s.macroIn := rfl
@[simp] theorem memRead_freeCtr (s : State) (a : BitVec 6) (b : Byte) :
    (s.memRead a b).freeCtr = s.freeCtr + 1 := rfl
@[simp] theorem memRead_stores (s : State) (a : BitVec 6) (b : Byte) :
    (s.memRead a b).stores = s.stores := rfl
@[simp] theorem memRead_code (s : State) (a : BitVec 6) (b : Byte) : (s.memRead a b).code = s.code := rfl
@[simp] theorem memRead_samples (s : State) (a : BitVec 6) (b : Byte) :
    (s.memRead a b).samples = s.samples := rfl
@[simp] theorem memRead_snapshot (s : State) (a : BitVec 6) (b : Byte) :
    (s.memRead a b).snapshot = s.snapshot := rfl
@[simp] theorem memRead_effectName (s : State) (a : BitVec 6) (b : Byte) :
    (s.memRead a b).effectName = s.effectName := rfl
@[simp] theorem memRead_trace (s : State) (a : BitVec 6) (b : Byte) :
    (s.memRead a b).trace = s.trace ++ [.bus { edge := s.edgeNo, write := false, addr := a, data := b }] := rfl
@[simp] theorem memRead_edgeNo (s : State) (a : BitVec 6) (b : Byte) :
    (s.memRead a b).edgeNo = s.edgeNo := rfl
@[simp] theorem memRead_pool (s : State) (a : BitVec 6) (b : Byte) : (s.memRead a b).pool = s.pool := rfl
@[simp] theorem memRead_devPage (s : State) (a : BitVec 6) (b : Byte) :
    (s.memRead a b).devPage = s.devPage := rfl

/-! ### memWrite -/

@[simp] theorem memWrite_lq (s : State) (a : BitVec 6) (v : Byte) : (s.memWrite a v).lq = s.lq := rfl
@[simp] theorem memWrite_pq (s : State) (a : BitVec 6) (v : Byte) : (s.memWrite a v).pq = s.pq := rfl
@[simp] theorem memWrite_cycle (s : State) (a : BitVec 6) (v : Byte) : (s.memWrite a v).cycle = s.cycle := rfl
@[simp] theorem memWrite_wasRead (s : State) (a : BitVec 6) (v : Byte) :
    (s.memWrite a v).wasRead = s.wasRead := rfl
@[simp] theorem memWrite_holdVal (s : State) (a : BitVec 6) (v : Byte) :
    (s.memWrite a v).holdVal = s.holdVal := rfl
@[simp] theorem memWrite_holdValid (s : State) (a : BitVec 6) (v : Byte) :
    (s.memWrite a v).holdValid = s.holdValid := rfl
@[simp] theorem memWrite_irqLatched (s : State) (a : BitVec 6) (v : Byte) :
    (s.memWrite a v).irqLatched = s.irqLatched := rfl
@[simp] theorem memWrite_acc (s : State) (a : BitVec 6) (v : Byte) : (s.memWrite a v).acc = s.acc := rfl
@[simp] theorem memWrite_skipWrites (s : State) (a : BitVec 6) (v : Byte) :
    (s.memWrite a v).skipWrites = s.skipWrites := rfl
@[simp] theorem memWrite_logEnable (s : State) (a : BitVec 6) (v : Byte) :
    (s.memWrite a v).logEnable = s.logEnable := rfl
@[simp] theorem memWrite_writeLog (s : State) (a : BitVec 6) (v : Byte) :
    (s.memWrite a v).writeLog = s.writeLog := rfl
@[simp] theorem memWrite_chanMax (s : State) (a : BitVec 6) (v : Byte) :
    (s.memWrite a v).chanMax = s.chanMax := rfl
@[simp] theorem memWrite_initChanMax (s : State) (a : BitVec 6) (v : Byte) :
    (s.memWrite a v).initChanMax = s.initChanMax := rfl
@[simp] theorem memWrite_muted (s : State) (a : BitVec 6) (v : Byte) : (s.memWrite a v).muted = s.muted := rfl
@[simp] theorem memWrite_curPage (s : State) (a : BitVec 6) (v : Byte) :
    (s.memWrite a v).curPage = s.curPage := rfl
@[simp] theorem memWrite_ch (s : State) (a : BitVec 6) (v : Byte) : (s.memWrite a v).ch = s.ch := rfl
@[simp] theorem memWrite_cfg (s : State) (a : BitVec 6) (v : Byte) : (s.memWrite a v).cfg = s.cfg := rfl
@[simp] theorem memWrite_port (s : State) (a : BitVec 6) (v : Byte) : (s.memWrite a v).port = s.port := rfl
@[simp] theorem memWrite_tickIn (s : State) (a : BitVec 6) (v : Byte) :
    (s.memWrite a v).tickIn = s.tickIn := rfl
@[simp] theorem memWrite_macroIn (s : State) (a : BitVec 6) (v : Byte) :
    (s.memWrite a v).macroIn = s.macroIn := rfl
@[simp] theorem memWrite_freeCtr (s : State) (a : BitVec 6) (v : Byte) :
    (s.memWrite a v).freeCtr = s.freeCtr := rfl
@[simp] theorem memWrite_stores (s : State) (a : BitVec 6) (v : Byte) :
    (s.memWrite a v).stores = s.stores := rfl
@[simp] theorem memWrite_code (s : State) (a : BitVec 6) (v : Byte) : (s.memWrite a v).code = s.code := rfl
@[simp] theorem memWrite_samples (s : State) (a : BitVec 6) (v : Byte) :
    (s.memWrite a v).samples = s.samples := rfl
@[simp] theorem memWrite_snapshot (s : State) (a : BitVec 6) (v : Byte) :
    (s.memWrite a v).snapshot = s.snapshot := rfl
@[simp] theorem memWrite_effectName (s : State) (a : BitVec 6) (v : Byte) :
    (s.memWrite a v).effectName = s.effectName := rfl
@[simp] theorem memWrite_trace (s : State) (a : BitVec 6) (v : Byte) :
    (s.memWrite a v).trace = s.trace ++ [.bus { edge := s.edgeNo, write := true, addr := a, data := v }] := rfl
@[simp] theorem memWrite_edgeNo (s : State) (a : BitVec 6) (v : Byte) :
    (s.memWrite a v).edgeNo = s.edgeNo := rfl
@[simp] theorem memWrite_pool (s : State) (a : BitVec 6) (v : Byte) :
    (s.memWrite a v).pool = Memory.write s.pool (poolAddr s.devPage a) v := rfl
@[simp] theorem memWrite_devPage (s : State) (a : BitVec 6) (v : Byte) :
    (s.memWrite a v).devPage = if a = busAddr s.cfg.regPage 3 then v.setWidth 7 else s.devPage := rfl

/-! ### finishByte -/

@[simp] theorem finishByte_lq (s : State) (w : PT) : (s.finishByte w).lq = s.lq := rfl
@[simp] theorem finishByte_pq (s : State) (w : PT) : (s.finishByte w).pq = s.pq.tail := rfl
@[simp] theorem finishByte_cycle (s : State) (w : PT) :
    (s.finishByte w).cycle = if w.step = 3 then w.delay.toNat else s.cycle := rfl
@[simp] theorem finishByte_wasRead (s : State) (w : PT) : (s.finishByte w).wasRead = s.wasRead := rfl
@[simp] theorem finishByte_holdVal (s : State) (w : PT) : (s.finishByte w).holdVal = s.holdVal := rfl
@[simp] theorem finishByte_holdValid (s : State) (w : PT) : (s.finishByte w).holdValid = s.holdValid := rfl
@[simp] theorem finishByte_irqLatched (s : State) (w : PT) : (s.finishByte w).irqLatched = s.irqLatched := rfl
@[simp] theorem finishByte_acc (s : State) (w : PT) : (s.finishByte w).acc = s.acc := rfl
@[simp] theorem finishByte_skipWrites (s : State) (w : PT) : (s.finishByte w).skipWrites = s.skipWrites := rfl
@[simp] theorem finishByte_logEnable (s : State) (w : PT) : (s.finishByte w).logEnable = s.logEnable := rfl
@[simp] theorem finishByte_writeLog (s : State) (w : PT) : (s.finishByte w).writeLog = s.writeLog := rfl
@[simp] theorem finishByte_chanMax (s : State) (w : PT) : (s.finishByte w).chanMax = s.chanMax := rfl
@[simp] theorem finishByte_initChanMax (s : State) (w : PT) :
    (s.finishByte w).initChanMax = s.initChanMax := rfl
@[simp] theorem finishByte_muted (s : State) (w : PT) : (s.finishByte w).muted = s.muted := rfl
@[simp] theorem finishByte_curPage (s : State) (w : PT) : (s.finishByte w).curPage = s.curPage := rfl
@[simp] theorem finishByte_ch (s : State) (w : PT) : (s.finishByte w).ch = s.ch := rfl
@[simp] theorem finishByte_cfg (s : State) (w : PT) : (s.finishByte w).cfg = s.cfg := rfl
@[simp] theorem finishByte_port (s : State) (w : PT) : (s.finishByte w).port = s.port := rfl
@[simp] theorem finishByte_tickIn (s : State) (w : PT) : (s.finishByte w).tickIn = s.tickIn := rfl
@[simp] theorem finishByte_macroIn (s : State) (w : PT) : (s.finishByte w).macroIn = s.macroIn := rfl
@[simp] theorem finishByte_freeCtr (s : State) (w : PT) : (s.finishByte w).freeCtr = s.freeCtr := rfl
@[simp] theorem finishByte_stores (s : State) (w : PT) : (s.finishByte w).stores = s.stores := rfl
@[simp] theorem finishByte_code (s : State) (w : PT) : (s.finishByte w).code = s.code := rfl
@[simp] theorem finishByte_samples (s : State) (w : PT) : (s.finishByte w).samples = s.samples := rfl
@[simp] theorem finishByte_snapshot (s : State) (w : PT) : (s.finishByte w).snapshot = s.snapshot := rfl
@[simp] theorem finishByte_effectName (s : State) (w : PT) : (s.finishByte w).effectName = s.effectName := rfl
@[simp] theorem finishByte_trace (s : State) (w : PT) : (s.finishByte w).trace = s.trace := rfl
@[simp] theorem finishByte_edgeNo (s : State) (w : PT) : (s.finishByte w).edgeNo = s.edgeNo := rfl
@[simp] theorem finishByte_pool (s : State) (w : PT) : (s.finishByte w).pool = s.pool := rfl
@[simp] theorem finishByte_devPage (s : State) (w : PT) : (s.finishByte w).devPage = s.devPage := rfl

/-! ### edgeBusy -/

@[simp] theorem edgeBusy_lq (s : State) : (s.edgeBusy).lq = s.lq := rfl
@[simp] theorem edgeBusy_pq (s : State) : (s.edgeBusy).pq = s.pq := rfl
@[simp] theorem edgeBusy_cycle (s : State) : (s.edgeBusy).cycle = s.cycle - 1 := rfl
@[simp] theorem edgeBusy_wasRead (s : State) : (s.edgeBusy).wasRead = s.wasRead := rfl
@[simp] theorem edgeBusy_holdVal (s : State) : (s.edgeBusy).holdVal = s.holdVal := rfl
@[simp] theorem edgeBusy_holdValid (s : State) : (s.edgeBusy).holdValid = s.holdValid := rfl
@[simp] theorem edgeBusy_irqLatched (s : State) : (s.edgeBusy).irqLatched = s.irqLatched := rfl
@[simp] theorem edgeBusy_acc (s : State) : (s.edgeBusy).acc = s.acc := rfl
@[simp] theorem edgeBusy_skipWrites (s : State) : (s.edgeBusy).skipWrites = s.skipWrites := rfl
@[simp] theorem edgeBusy_logEnable (s : State) : (s.edgeBusy).logEnable = s.logEnable := rfl
@[simp] theorem edgeBusy_writeLog (s : State) : (s.edgeBusy).writeLog = s.writeLog := rfl
@[simp] theorem edgeBusy_chanMax (s : State) : (s.edgeBusy).chanMax = s.chanMax := rfl
@[simp] theorem edgeBusy_initChanMax (s : State) : (s.edgeBusy).initChanMax = s.initChanMax := rfl
@[simp] theorem edgeBusy_muted (s : State) : (s.edgeBusy).muted = s.muted := rfl
@[simp] theorem edgeBusy_curPage (s : State) : (s.edgeBusy).curPage = s.curPage := rfl
@[simp] theorem edgeBusy_ch (s : State) : (s.edgeBusy).ch = s.ch := rfl
@[simp] theorem edgeBusy_cfg (s : State) : (s.edgeBusy).cfg = s.cfg := rfl
@[simp] theorem edgeBusy_port (s : State) : (s.edgeBusy).port = s.port := rfl
@[simp] theorem edgeBusy_tickIn (s : State) : (s.edgeBusy).tickIn = s.tickIn := rfl
@[simp] theorem edgeBusy_macroIn (s : State) : (s.edgeBusy).macroIn = s.macroIn := rfl
@[simp] theorem edgeBusy_freeCtr (s : State) : (s.edgeBusy).freeCtr = s.freeCtr := rfl
@[simp] theorem edgeBusy_stores (s : State) : (s.edgeBusy).stores = s.stores := rfl
@[simp] theorem edgeBusy_code (s : State) : (s.edgeBusy).code = s.code := rfl
@[simp] theorem edgeBusy_samples (s : State) : (s.edgeBusy).samples = s.samples := rfl
@[simp] theorem edgeBusy_snapshot (s : State) : (s.edgeBusy).snapshot = s.snapshot := rfl
@[simp] theorem edgeBusy_effectName (s : State) : (s.edgeBusy).effectName = s.effectName := rfl
@[simp] theorem edgeBusy_trace (s : State) : (s.edgeBusy).trace = s.trace := rfl
@[simp] theorem edgeBusy_edgeNo (s : State) : (s.edgeBusy).edgeNo = s.edgeNo := rfl
@[simp] theorem edgeBusy_pool (s : State) : (s.edgeBusy).pool = s.pool := rfl
@[simp] theorem edgeBusy_devPage (s : State) : (s.edgeBusy).devPage = s.devPage := rfl

/-! ### countEdge -/

@[simp] theorem countEdge_lq (s : State) : (s.countEdge).lq = s.lq := rfl
@[simp] theorem countEdge_pq (s : State) : (s.countEdge).pq = s.pq := rfl
@[simp] theorem countEdge_cycle (s : State) : (s.countEdge).cycle = s.cycle := rfl
@[simp] theorem countEdge_wasRead (s : State) : (s.countEdge).wasRead = s.wasRead := rfl
@[simp] theorem countEdge_holdVal (s : State) : (s.countEdge).holdVal = s.holdVal := rfl
@[simp] theorem countEdge_holdValid (s : State) : (s.countEdge).holdValid = s.holdValid := rfl
@[simp] theorem countEdge_irqLatched (s : State) : (s.countEdge).irqLatched = s.irqLatched := rfl
@[simp] theorem countEdge_acc (s : State) : (s.countEdge).acc = s.acc := rfl
@[simp] theorem countEdge_skipWrites (s : State) : (s.countEdge).skipWrites = s.skipWrites := rfl
@[simp] theorem countEdge_logEnable (s : State) : (s.countEdge).logEnable = s.logEnable := rfl
@[simp] theorem countEdge_writeLog (s : State) : (s.countEdge).writeLog = s.writeLog := rfl
@[simp] theorem countEdge_chanMax (s : State) : (s.countEdge).chanMax = s.chanMax := rfl
@[simp] theorem countEdge_initChanMax (s : State) : (s.countEdge).initChanMax = s.initChanMax := rfl
@[simp] theorem countEdge_muted (s : State) : (s.countEdge).muted = s.muted := rfl
@[simp] theorem countEdge_curPage (s : State) : (s.countEdge).curPage = s.curPage := rfl
@[simp] theorem countEdge_ch (s : State) : (s.countEdge).ch = s.ch := rfl
@[simp] theorem countEdge_cfg (s : State) : (s.countEdge).cfg = s.cfg := rfl
@[simp] theorem countEdge_port (s : State) : (s.countEdge).port = s.port := rfl
@[simp] theorem countEdge_tickIn (s : State) : (s.countEdge).tickIn = s.tickIn := rfl
@[simp] theorem countEdge_macroIn (s : State) : (s.countEdge).macroIn = s.macroIn := rfl
@[simp] theorem countEdge_freeCtr (s : State) : (s.countEdge).freeCtr = s.freeCtr := rfl
@[simp] theorem countEdge_stores (s : State) : (s.countEdge).stores = s.stores := rfl
@[simp] theorem countEdge_code (s : State) : (s.countEdge).code = s.code := rfl
@[simp] theorem countEdge_samples (s : State) : (s.countEdge).samples = s.samples := rfl
@[simp] theorem countEdge_snapshot (s : State) : (s.countEdge).snapshot = s.snapshot := rfl
@[simp] theorem countEdge_effectName (s : State) : (s.countEdge).effectName = s.effectName := rfl
@[simp] theorem countEdge_trace (s : State) : (s.countEdge).trace = s.trace := rfl
@[simp] theorem countEdge_edgeNo (s : State) : (s.countEdge).edgeNo = s.edgeNo + 1 := rfl
@[simp] theorem countEdge_pool (s : State) : (s.countEdge).pool = s.pool := rfl
@[simp] theorem countEdge_devPage (s : State) : (s.countEdge).devPage = s.devPage := rfl

/-! ### setCode -/

@[simp] theorem setCode_lq (s : State) (n : Nat) : (s.setCode n).lq = s.lq := rfl
@[simp] theorem setCode_pq (s : State) (n : Nat) : (s.setCode n).pq = s.pq := rfl
@[simp] theorem setCode_cycle (s : State) (n : Nat) : (s.setCode n).cycle = s.cycle := rfl
@[simp] theorem setCode_wasRead (s : State) (n : Nat) : (s.setCode n).wasRead = s.wasRead := rfl
@[simp] theorem setCode_holdVal (s : State) (n : Nat) : (s.setCode n).holdVal = s.holdVal := rfl
@[simp] theorem setCode_holdValid (s : State) (n : Nat) : (s.setCode n).holdValid = s.holdValid := rfl
@[simp] theorem setCode_irqLatched (s : State) (n : Nat) : (s.setCode n).irqLatched = s.irqLatched := rfl
@[simp] theorem setCode_acc (s : State) (n : Nat) : (s.setCode n).acc = s.acc := rfl
@[simp] theorem setCode_skipWrites (s : State) (n : Nat) : (s.setCode n).skipWrites = s.skipWrites := rfl
@[simp] theorem setCode_logEnable (s : State) (n : Nat) : (s.setCode n).logEnable = s.logEnable := rfl
@[simp] theorem setCode_writeLog (s : State) (n : Nat) : (s.setCode n).writeLog = s.writeLog := rfl
@[simp] theorem setCode_chanMax (s : State) (n : Nat) : (s.setCode n).chanMax = s.chanMax := rfl
@[simp] theorem setCode_initChanMax (s : State) (n : Nat) : (s.setCode n).initChanMax = s.initChanMax := rfl
@[simp] theorem setCode_muted (s : State) (n : Nat) : (s.setCode n).muted = s.muted := rfl
@[simp] theorem setCode_curPage (s : State) (n : Nat) : (s.setCode n).curPage = s.curPage := rfl
@[simp] theorem setCode_ch (s : State) (n : Nat) : (s.setCode n).ch = s.ch := rfl
@[simp] theorem setCode_cfg (s : State) (n : Nat) : (s.setCode n).cfg = s.cfg := rfl
@[simp] theorem setCode_port (s : State) (n : Nat) : (s.setCode n).port = s.port := rfl
@[simp] theorem setCode_tickIn (s : State) (n : Nat) : (s.setCode n).tickIn = s.tickIn := rfl
@[simp] theorem setCode_macroIn (s : State) (n : Nat) : (s.setCode n).macroIn = s.macroIn := rfl
@[simp] theorem setCode_freeCtr (s : State) (n : Nat) : (s.setCode n).freeCtr = s.freeCtr := rfl
@[simp] theorem setCode_stores (s : State) (n : Nat) : (s.setCode n).stores = s.stores := rfl
@[simp] theorem setCode_code (s : State) (n : Nat) : (s.setCode n).code = some n := rfl
@[simp] theorem setCode_samples (s : State) (n : Nat) : (s.setCode n).samples = s.samples := rfl
@[simp] theorem setCode_snapshot (s : State) (n : Nat) : (s.setCode n).snapshot = s.snapshot := rfl
@[simp] theorem setCode_effectName (s : State) (n : Nat) : (s.setCode n).effectName = s.effectName := rfl
@[simp] theorem setCode_trace (s : State) (n : Nat) : (s.setCode n).trace = s.trace := rfl
@[simp] theorem setCode_edgeNo (s : State) (n : Nat) : (s.setCode n).edgeNo = s.edgeNo := rfl
@[simp] theorem setCode_pool (s : State) (n : Nat) : (s.setCode n).pool = s.pool := rfl
@[simp] theorem setCode_devPage (s : State) (n : Nat) : (s.setCode n).devPage = s.devPage := rfl

/-! ### present -/

@[simp] theorem present_lq (s : State) (r : OpRecord) : (s.present r).lq = s.lq := rfl
@[simp] theorem present_pq (s : State) (r : OpRecord) : (s.present r).pq = s.pq := rfl
@[simp] theorem present_cycle (s : State) (r : OpRecord) : (s.present r).cycle = s.cycle := rfl
@[simp] theorem present_wasRead (s : State) (r : OpRecord) : (s.present r).wasRead = s.wasRead := rfl
@[simp] theorem present_holdVal (s : State) (r : OpRecord) : (s.present r).holdVal = s.holdVal := rfl
@[simp] theorem present_holdValid (s : State) (r : OpRecord) : (s.present r).holdValid = s.holdValid := rfl
@[simp] theorem present_irqLatched (s : State) (r : OpRecord) : (s.present r).irqLatched = s.irqLatched := rfl
@[simp] theorem present_acc (s : State) (r : OpRecord) : (s.present r).acc = s.acc := rfl
@[simp] theorem present_skipWrites (s : State) (r : OpRecord) : (s.present r).skipWrites = s.skipWrites := rfl
@[simp] theorem present_logEnable (s : State) (r : OpRecord) : (s.present r).logEnable = s.logEnable := rfl
@[simp] theorem present_writeLog (s : State) (r : OpRecord) : (s.present r).writeLog = s.writeLog := rfl
@[simp] theorem present_chanMax (s : State) (r : OpRecord) : (s.present r).chanMax = s.chanMax := rfl
@[simp] theorem present_initChanMax (s : State) (r : OpRecord) :
    (s.present r).initChanMax = s.initChanMax := rfl
@[simp] theorem present_muted (s : State) (r : OpRecord) : (s.present r).muted = s.muted := rfl
@[simp] theorem present_curPage (s : State) (r : OpRecord) : (s.present r).curPage = s.curPage := rfl
@[simp] theorem present_ch (s : State) (r : OpRecord) : (s.present r).ch = s.ch := rfl
@[simp] theorem present_cfg (s : State) (r : OpRecord) : (s.present r).cfg = s.cfg := rfl
@[simp] theorem present_port (s : State) (r : OpRecord) : (s.present r).port = ⟨r, s.stores⟩ :: s.port := rfl
@[simp] theorem present_tickIn (s : State) (r : OpRecord) : (s.present r).tickIn = s.tickIn := rfl
@[simp] theorem present_macroIn (s : State) (r : OpRecord) : (s.present r).macroIn = s.macroIn := rfl
@[simp] theorem present_freeCtr (s : State) (r : OpRecord) : (s.present r).freeCtr = s.freeCtr := rfl
@[simp] theorem present_stores (s : State) (r : OpRecord) : (s.present r).stores = s.stores := rfl
@[simp] theorem present_code (s : State) (r : OpRecord) : (s.present r).code = s.code := rfl
@[simp] theorem present_samples (s : State) (r : OpRecord) : (s.present r).samples = s.samples := rfl
@[simp] theorem present_snapshot (s : State) (r : OpRecord) : (s.present r).snapshot = s.snapshot := rfl
@[simp] theorem present_effectName (s : State) (r : OpRecord) : (s.present r).effectName = s.effectName := rfl
@[simp] theorem present_trace (s : State) (r : OpRecord) : (s.present r).trace = s.trace := rfl
@[simp] theorem present_edgeNo (s : State) (r : OpRecord) : (s.present r).edgeNo = s.edgeNo := rfl
@[simp] theorem present_pool (s : State) (r : OpRecord) : (s.present r).pool = s.pool := rfl
@[simp] theorem present_devPage (s : State) (r : OpRecord) : (s.present r).devPage = s.devPage := rfl

end Sys2Proof.Machine
end

