-- ==== Sys2Proof/Laws/Bank.lean ====
section
/-! SUPPORT. Reading and writing one channel's cell. -/

namespace Sys2Proof

@[simp] theorem Bank.get_set_same {α : Type} (b : Bank α) (i : ChIx) (a : α) : (b.set i a).get i = a := by
  simp [Bank.get, Bank.set]

theorem Bank.get_set_ne {α : Type} (b : Bank α) {i j : ChIx} (a : α) (h : j ≠ i) :
    (b.set i a).get j = b.get j := by
  have : i.val ≠ j.val := fun e => h (Fin.ext e.symm)
  simp [Bank.get, Bank.set, this]

theorem Bank.get_set {α : Type} (b : Bank α) (i j : ChIx) (a : α) :
    (b.set i a).get j = if j = i then a else b.get j := by
  by_cases h : j = i
  · subst h; simp
  · simp [h, Bank.get_set_ne b a h]

@[simp] theorem Bank.get_fill {α : Type} (a : α) (i : ChIx) : (Bank.fill a).get i = a := by
  exact List.getElem_replicate ..

@[simp] theorem Bank.get_map {α β : Type} (f : α → β) (b : Bank α) (i : ChIx) :
    (b.map f).get i = f (b.get i) := by
  simp [Bank.get, Bank.map]

@[simp] theorem Bank.get_ofFn {α : Type} (f : ChIx → α) (i : ChIx) : (Bank.ofFn f).get i = f i := by
  simp [Bank.get, Bank.ofFn]

/-- Two banks with the same cell for every channel are the same. -/
theorem Bank.ext_get {α : Type} {a b : Bank α} (h : ∀ i, a.get i = b.get i) : a = b := by
  obtain ⟨l, hl⟩ := a
  obtain ⟨m, hm⟩ := b
  have : l = m := by
    apply List.ext_getElem (by omega)
    intro k hk _
    exact h ⟨k, by omega⟩
  subst this
  rfl

@[simp] theorem Bank.set_set {α : Type} (b : Bank α) (i : ChIx) (x y : α) : (b.set i x).set i y = b.set i y := by
  simp [Bank.set]

@[simp] theorem Bank.set_get {α : Type} (b : Bank α) (i : ChIx) : b.set i (b.get i) = b := by
  apply Bank.ext_get
  intro j
  by_cases h : j = i
  · subst h; simp
  · simp [Bank.get_set_ne b _ h]

namespace Machine

@[simp] theorem chan_setChan_same (s : State) (i : ChIx) (c : Chan) : (s.setChan i c).chan i = c := by
  simp [State.chan]

theorem chan_setChan_ne (s : State) {i j : ChIx} (c : Chan) (h : j ≠ i) : (s.setChan i c).chan j = s.chan j := by
  simp [State.chan, Bank.get_set_ne s.ch c h]

@[simp] theorem setChan_setChan (s : State) (i : ChIx) (c d : Chan) :
    (s.setChan i c).setChan i d = s.setChan i d := by
  simp [State.setChan]

@[simp] theorem setChan_chan (s : State) (i : ChIx) : s.setChan i (s.chan i) = s := by
  simp [State.setChan, State.chan]

/-- What is left of a state when only its channels are looked at. -/
theorem chan_congr {s t : State} (h : s.ch = t.ch) (i : ChIx) : s.chan i = t.chan i := by
  simp [State.chan, h]

end Machine

end Sys2Proof
end

