-- ==== Sys2Proof/Laws/Bits.lean ====
section
/-! SUPPORT. Bytes of a word, and the word of its bytes. -/

namespace Sys2Proof

theorem byteOf_getLsbD (v : Word) (s : BitVec 2) (k : Nat) :
    (byteOf v s).getLsbD k = (decide (k < 8) && v.getLsbD (shiftOf s + k)) := by
  simp [byteOf]

/-- A word is made of its four bytes, most significant first (20_memory.md R73). -/
@[simp] theorem wordOfBytes_byteOf (v : Word) :
    wordOfBytes (byteOf v 0#2) (byteOf v 1#2) (byteOf v 2#2) (byteOf v 3#2) = v := by
  apply BitVec.eq_of_getLsbD_eq
  intro k hk
  simp only [wordOfBytes, BitVec.getLsbD_append, byteOf_getLsbD, shiftOf]
  by_cases h1 : k < 8
  · simp [h1]
  · by_cases h2 : k - 8 < 8
    · have : 8 + (k - 8) = k := by omega
      simp [h1, h2, this]
    · by_cases h3 : k - 8 - 8 < 8
      · have : 16 + (k - 8 - 8) = k := by omega
        simp [h1, h2, h3, this]
      · have h4 : k - 8 - 8 - 8 < 8 := by omega
        have : 24 + (k - 8 - 8 - 8) = k := by omega
        simp [h1, h2, h3, h4, this]

/-- The bytes of a word made of four bytes are those bytes. -/
theorem byteOf_wordOfBytes (a b c d : Byte) :
    byteOf (wordOfBytes a b c d) 0#2 = a ∧ byteOf (wordOfBytes a b c d) 1#2 = b ∧
      byteOf (wordOfBytes a b c d) 2#2 = c ∧ byteOf (wordOfBytes a b c d) 3#2 = d := by
  refine ⟨?_, ?_, ?_, ?_⟩ <;>
  · apply BitVec.eq_of_getLsbD_eq
    intro k hk
    simp only [byteOf_getLsbD, wordOfBytes, BitVec.getLsbD_append, shiftOf]
    simp [hk]
    try grind

@[simp] theorem boolOfWord_wordOfBool (b : Bool) : boolOfWord (wordOfBool b) = b := by
  cases b <;> decide

@[simp] theorem wordBytes_eq (v : Word) : wordBytes v = [byteOf v 0#2, byteOf v 1#2, byteOf v 2#2, byteOf v 3#2] := rfl

/-- An integer that fits its field is read back from it. -/
theorem toInt_ofInt_of_fits {v : Int} (h : fits32 v = true) : (BitVec.ofInt 32 v).toInt = v := by
  simp only [fits32, Bool.and_eq_true, decide_eq_true_eq] at h
  rw [BitVec.toInt_ofInt]
  exact Int.bmod_eq_of_le (by omega) (by omega)

end Sys2Proof
end

