-- ==== Sys2Proof/Laws/Memory.lean ====
section
/-! SUPPORT. The register pool: read after write, the frame of a write, and the canonical form, which every write
keeps. -/

namespace Sys2Proof.Machine

theorem memory_read_cons (b : Nat) (w : Byte) (t : Memory) (a : Nat) :
    Memory.read ((b, w) :: t) a = if a = b then w else Memory.read t a := by
  by_cases h : a = b
  · simp [Memory.read, List.lookup, h]
  · have : (a == b) = false := by simpa using h
    simp [Memory.read, List.lookup, h, this]

theorem memory_wfFrom_mono {m : Memory} {lo hi : Nat} (h : lo ≤ hi) (hm : Memory.wfFrom hi m = true) :
    Memory.wfFrom lo m = true := by
  cases m with
  | nil => rfl
  | cons c t =>
    obtain ⟨b, w⟩ := c
    simp only [Memory.wfFrom, Bool.and_eq_true, decide_eq_true_eq] at hm ⊢
    exact ⟨⟨by omega, hm.1.2⟩, hm.2⟩

/-- Below the first listed address everything reads as unlisted. -/
theorem memory_read_below {m : Memory} {lo a : Nat} (hm : Memory.wfFrom lo m = true) (h : a < lo) :
    Memory.read m a = unlistedByte := by
  induction m generalizing lo with
  | nil => rfl
  | cons c t ih =>
    obtain ⟨b, w⟩ := c
    simp only [Memory.wfFrom, Bool.and_eq_true, decide_eq_true_eq] at hm
    rw [memory_read_cons, if_neg (by omega)]
    exact ih hm.2 (by omega)

/-- A write is read back at its address and leaves every other address as it was. -/
theorem memory_read_write {m : Memory} {lo : Nat} (hm : Memory.wfFrom lo m = true) (a : Nat) (v : Byte) (x : Nat) :
    Memory.read (Memory.write m a v) x = if x = a then v else Memory.read m x := by
  induction m generalizing lo with
  | nil =>
    by_cases hv : v = unlistedByte
    · simp only [Memory.write, hv, if_true]
      by_cases hx : x = a <;> simp [hx, Memory.read]
    · simp [Memory.write, hv, memory_read_cons]
  | cons c t ih =>
    obtain ⟨b, w⟩ := c
    simp only [Memory.wfFrom, Bool.and_eq_true, decide_eq_true_eq] at hm
    have ih' := ih hm.2
    simp only [Memory.write]
    by_cases h1 : b < a
    · simp only [h1, if_true, memory_read_cons, ih']
      by_cases hx : x = b
      · have : x ≠ a := by omega
        simp [hx]; omega
      · simp [hx]
    · by_cases h2 : b = a
      · subst h2
        by_cases hv : v = unlistedByte
        · simp only [Nat.lt_irrefl, if_false, if_true, hv, memory_read_cons]
          by_cases hx : x = b
          · subst hx; simp [memory_read_below hm.2 (Nat.lt_succ_self x)]
          · simp [hx]
        · simp only [Nat.lt_irrefl, if_false, if_true, hv, memory_read_cons]
          by_cases hx : x = b <;> simp [hx]
      · by_cases hv : v = unlistedByte
        · simp only [h1, h2, hv, if_false, if_true]
          by_cases hx : x = a
          · subst hx
            rw [if_pos rfl, memory_read_cons, if_neg (by omega)]
            exact memory_read_below hm.2 (by omega)
          · simp [hx]
        · simp [h1, h2, hv, memory_read_cons]

/-- A write keeps the canonical form. -/
theorem memory_write_wfFrom {m : Memory} {lo a : Nat} (hm : Memory.wfFrom lo m = true) (h : lo ≤ a) (v : Byte) :
    Memory.wfFrom lo (Memory.write m a v) = true := by
  induction m generalizing lo with
  | nil =>
    by_cases hv : v = unlistedByte
    · simp [Memory.write, hv, Memory.wfFrom]
    · simp [Memory.write, hv, Memory.wfFrom, h]
  | cons c t ih =>
    obtain ⟨b, w⟩ := c
    have hm' := hm
    simp only [Memory.wfFrom, Bool.and_eq_true, decide_eq_true_eq] at hm
    simp only [Memory.write]
    by_cases h1 : b < a
    · simp only [h1, if_true, Memory.wfFrom, Bool.and_eq_true, decide_eq_true_eq]
      exact ⟨hm.1, ih hm.2 (by omega)⟩
    · by_cases h2 : b = a
      · subst h2
        by_cases hv : v = unlistedByte
        · simp only [Nat.lt_irrefl, if_false, if_true, hv]
          exact memory_wfFrom_mono (by omega) hm.2
        · simp only [Nat.lt_irrefl, if_false, if_true, hv, Memory.wfFrom, Bool.and_eq_true, decide_eq_true_eq]
          exact ⟨⟨h, hv⟩, hm.2⟩
      · by_cases hv : v = unlistedByte
        · simp only [h1, h2, hv, if_false, if_true]; exact hm'
        · simp only [h1, h2, hv, if_false, Memory.wfFrom, Bool.and_eq_true, decide_eq_true_eq]
          exact ⟨⟨h, hv⟩, ⟨by omega, hm.1.2⟩, hm.2⟩

/-- Every write keeps the pool's canonical form. -/
theorem memory_write_wf {m : Memory} (hm : Memory.wf m = true) (a : Nat) (v : Byte) :
    Memory.wf (Memory.write m a v) = true :=
  memory_write_wfFrom hm (Nat.zero_le a) v

/-- Reading after a write, on a pool in canonical form. -/
theorem memory_wf_read_write {m : Memory} (hm : Memory.wf m = true) (a : Nat) (v : Byte) (x : Nat) :
    Memory.read (Memory.write m a v) x = if x = a then v else Memory.read m x :=
  memory_read_write hm a v x

/-- A write lists no address but its own beside those listed before. -/
theorem memory_mem_write {m : Memory} {a : Nat} {v : Byte} {c : Host.Cell} (h : c ∈ Memory.write m a v) :
    c = (a, v) ∨ c ∈ m := by
  induction m with
  | nil =>
    by_cases hv : v = unlistedByte
    · simp [Memory.write, hv] at h
    · left; simpa [Memory.write, hv] using h
  | cons d t ih =>
    obtain ⟨b, w⟩ := d
    simp only [Memory.write] at h
    split at h
    · rcases List.mem_cons.1 h with h | h
      · exact .inr (h ▸ List.mem_cons_self)
      · exact (ih h).imp_right (List.mem_cons_of_mem _)
    · split at h
      · split at h
        · exact .inr (List.mem_cons_of_mem _ h)
        · exact (List.mem_cons.1 h).imp_right (List.mem_cons_of_mem _)
      · split at h
        · exact .inr h
        · exact List.mem_cons.1 h

theorem poolAddr_lt (page : BitVec 7) (a : BitVec 6) : poolAddr page a < 8192 := by
  have := page.isLt
  have := a.isLt
  unfold poolAddr
  omega

/-- Two places of the pool are the same only for the same page and bus address (20_memory.md R70). -/
theorem poolAddr_inj {p q : BitVec 7} {a b : BitVec 6} (h : poolAddr p a = poolAddr q b) : p = q ∧ a = b := by
  have := a.isLt
  have := b.isLt
  unfold poolAddr at h
  constructor <;> apply BitVec.eq_of_toNat_eq <;> omega

end Sys2Proof.Machine
end

