-- ==== Sys2Proof/Laws/Ops.lean ====
section
/-! SUPPORT. What each shared operation over operands, the queue and the page register can do, said once. -/

namespace Sys2Proof.Machine

/-! ### Operands -/

@[simp] theorem withAddress_setWidth (a : BitVec 4) (k : BitVec 4 → Result State) :
    withAddress (a.setWidth 32) k = k a := by
  have h := a.isLt
  have h2 : (a.setWidth 32).toNat ≤ 15 := by simp only [BitVec.toNat_setWidth]; omega
  rw [withAddress, if_pos h2]
  simp

theorem withAddress_out {addr : Word} (h : 15 < addr.toNat) (k : BitVec 4 → Result State) :
    withAddress addr k = .refused .addressOutOfRange := by
  simp [withAddress, Nat.not_le.2 h]

@[simp] theorem withPage_setWidth (p : BitVec 7) (k : Byte → Result State) :
    withPage (p.setWidth 32) k = k (p.setWidth 8) := by
  have h := p.isLt
  have h2 : (p.setWidth 32).toNat ≤ 127 := by simp only [BitVec.toNat_setWidth]; omega
  rw [withPage, if_pos h2]
  simp

theorem withPage_out {p : Word} (h : 127 < p.toNat) (k : Byte → Result State) :
    withPage p k = .refused .pageOutOfRange := by
  simp [withPage, Nat.not_le.2 h]

theorem withAccumulator_in {s : State} {dest : Word} (h : dest.toNat < s.acc.length) (k : Nat → Result State) :
    withAccumulator s dest k = k dest.toNat := by
  simp [withAccumulator, h]

theorem withAccumulator_out {s : State} {dest : Word} (h : s.acc.length ≤ dest.toNat) (k : Nat → Result State) :
    withAccumulator s dest k = .refused .accumulatorOutOfRange := by
  simp [withAccumulator, Nat.not_lt.2 h]

@[simp] theorem withChannel_chanByte (i : ChIx) (k : ChIx → Result State) : withChannel (chanByte i) k = k i := by
  have h : i.val % 256 = i.val := Nat.mod_eq_of_lt (by omega)
  have h2 : (chanByte i).toNat = i.val := by simp [chanByte, h]
  simp [withChannel, h2]

theorem withChannel_out {ch : Byte} (h : 32 ≤ ch.toNat) (k : ChIx → Result State) :
    withChannel ch k = .refused .channelOutOfRange := by
  simp [withChannel, Nat.not_lt.2 h]

/-- A channel operand is legal or the operation is refused; every other result comes from the continuation. -/
theorem withChannel_next {ch : Byte} {k : ChIx → Result State} {t : State} (h : withChannel ch k = .next t) :
    ∃ i : ChIx, i.val = ch.toNat ∧ k i = .next t := by
  unfold withChannel at h
  split at h
  · exact ⟨_, rfl, h⟩
  · cases h

theorem withAddress_next {a : Word} {k : BitVec 4 → Result State} {t : State} (h : withAddress a k = .next t) :
    a.toNat ≤ 15 ∧ k (a.setWidth 4) = .next t := by
  unfold withAddress at h
  split at h
  · exact ⟨‹_›, h⟩
  · cases h

theorem withPage_next {p : Word} {k : Byte → Result State} {t : State} (h : withPage p k = .next t) :
    p.toNat ≤ 127 ∧ k (p.setWidth 8) = .next t := by
  unfold withPage at h
  split at h
  · exact ⟨‹_›, h⟩
  · cases h

theorem withAccumulator_next {s : State} {d : Word} {k : Nat → Result State} {t : State}
    (h : withAccumulator s d k = .next t) : d.toNat < s.acc.length ∧ k d.toNat = .next t := by
  unfold withAccumulator at h
  split at h
  · exact ⟨‹_›, h⟩
  · cases h

/-! ### Pages -/

theorem pgA_le (c : Cfg) (i : ChIx) : (pgA c i).toNat ≤ 127 := by
  have := (c.pageA.get i).isLt
  simp only [pgA, BitVec.toNat_setWidth]
  omega

theorem pgB_le (c : Cfg) (i : ChIx) : (pgB c i).toNat ≤ 127 := by
  have := (c.pageB.get i).isLt
  simp only [pgB, BitVec.toNat_setWidth]
  omega

@[simp] theorem pgA_default (i : ChIx) : pgA Cfg.default i = BitVec.ofNat 8 i.val := by
  revert i; decide

@[simp] theorem pgB_default (i : ChIx) : pgB Cfg.default i = BitVec.ofNat 8 (0x20 + i.val) := by
  revert i; decide

/-- A legal page, widened to an operand, names itself. -/
theorem withPage_byte {p : Byte} (h : p.toNat ≤ 127) (k : Byte → Result State) :
    withPage (p.setWidth 32) k = k p := by
  have := p.isLt
  have h2 : (p.setWidth 32).toNat ≤ 127 := by simp only [BitVec.toNat_setWidth]; omega
  rw [withPage, if_pos h2]
  simp

/-! ### Inputs of a step -/

/-- All that taking a device tick does: the script is one shorter, or one more free question is asked. -/
theorem takeTick_eq (s : State) :
    s.takeTick = { s with tickIn := s.tickIn.tail, trace := s.trace ++ [.tick]
                          freeCtr := if s.tickIn = [] then s.freeCtr + 1 else s.freeCtr } := by
  unfold State.takeTick
  split <;> rename_i h <;> simp [h, State.note]

/-- All that taking channel i's macro input does: the script is one shorter, or one more free question is asked,
and the channel's cursor has advanced. -/
theorem takeMacro_eq (s : State) (i : ChIx) (b : Bool) :
    s.takeMacro i b = { s with macroIn := s.macroIn.tail
                               freeCtr := if s.macroIn = [] then s.freeCtr + 1 else s.freeCtr
                               ch := s.ch.set i { s.chan i with cursor := (s.nextMacro i b).cursor } } := by
  unfold State.takeMacro State.modChan State.setChan State.chan
  cases h : s.macroIn <;> simp

/-- Where neither envelope slot is delivered, no EnvMacroMap acts (42_channel_translator.md R182). -/
theorem envMacroMap_undelivered (c : Cfg) {x y : Slot} (hx : x.had = false) (hy : y.had = false) :
    envMacroMap c x y = [] := by
  unfold envMacroMap
  split <;> simp [hx, hy]

/-- A slot that was not delivered reads the same whatever it holds. -/
theorem delivered_of_not_had {t : Slot} (h : t.had = false) : t.delivered = ⟨false, 0, 0⟩ := by
  simp [Slot.delivered, h]

/-! ### Writes into the queue -/

/-- All that a write through the queue and the page helpers does: the shadow page may move to a legal page, and
writes join the back of LQ. -/
def QueuesOnly (s t : State) : Prop :=
  ∃ (p : Byte) (ws : List LT), t = { s with curPage := p, lq := s.lq ++ ws } ∧
    (s.curPage.toNat ≤ 127 → p.toNat ≤ 127) ∧ ∀ w ∈ ws, ∃ v, w.payload = .write v

theorem QueuesOnly.refl (s : State) : QueuesOnly s s := ⟨s.curPage, [], by simp, id, by simp⟩

theorem QueuesOnly.trans {s t u : State} (h1 : QueuesOnly s t) (h2 : QueuesOnly t u) : QueuesOnly s u := by
  obtain ⟨p, ws, rfl, hp, hw⟩ := h1
  obtain ⟨q, xs, rfl, hq, hx⟩ := h2
  refine ⟨q, ws ++ xs, by simp, fun h => hq (hp h), ?_⟩
  intro w h
  rcases List.mem_append.1 h with h | h
  · exact hw w h
  · exact hx w h

theorem enqw_queuesOnly (s : State) (a : BitVec 4) (v m d : Word) : QueuesOnly s (s.enqw a v m d) := by
  unfold State.enqw
  split
  · exact QueuesOnly.refl s
  · exact ⟨s.curPage, [_], rfl, id, by simp⟩

theorem pageSel_queuesOnly (s : State) {p : Byte} (hp : p.toNat ≤ 127) (pm : Byte) :
    QueuesOnly s (s.pageSel p pm) := by
  unfold State.pageSel
  split
  · exact QueuesOnly.refl s
  · split
    · rename_i h _
      refine ⟨p, [_], by simp [State.enqw, h, State.pushLQ]; rfl, fun _ => hp, by simp⟩
    · exact QueuesOnly.refl s

theorem pgWriteM_queuesOnly (s : State) {p : Byte} (hp : p.toNat ≤ 127) (pm : Byte) (r : BitVec 4) (v m d : Word) :
    QueuesOnly s (s.pgWriteM p pm r v m d) :=
  (pageSel_queuesOnly s hp pm).trans (enqw_queuesOnly _ r v m d)

theorem writeA_queuesOnly (s : State) (i : ChIx) (r : BitVec 4) (v : Word) : QueuesOnly s (s.writeA i r v) :=
  pgWriteM_queuesOnly s (pgA_le _ i) _ _ _ _ _

theorem writeB_queuesOnly (s : State) (i : ChIx) (r : BitVec 4) (v : Word) : QueuesOnly s (s.writeB i r v) :=
  pgWriteM_queuesOnly s (pgB_le _ i) _ _ _ _ _

theorem writeCr_queuesOnly (s : State) (i : ChIx) (v m : Word) : QueuesOnly s (s.writeCr i v m) :=
  pgWriteM_queuesOnly s (pgA_le _ i) _ _ _ _ _

/-- PGWRITEM, spelled out: nothing under skipWrites; else the register write, behind one page select if the page
differs from the shadow under the mask (40_bus_queue.md R135, R136). -/
theorem pgWriteM_eq (s : State) (p pm : Byte) (r : BitVec 4) (v m d : Word) :
    s.pgWriteM p pm r v m d =
      if s.skipWrites = true then s
      else if p &&& pm = s.curPage &&& pm then { s with lq := s.lq ++ [⟨.write v, r, m, d⟩] }
      else { s with curPage := p, lq := s.lq ++ [⟨.write (p.setWidth 32), s.cfg.regPage, allBits, 0⟩,
                                                ⟨.write v, r, m, d⟩] } := by
  by_cases h : s.skipWrites = true
  · simp [State.pgWriteM, State.pageSel, State.enqw, h]
  · by_cases h2 : p &&& pm = s.curPage &&& pm
    · simp [State.pgWriteM, State.pageSel, State.enqw, State.pushLQ, State.needsSwitch, h, h2]
    · simp [State.pgWriteM, State.pageSel, State.enqw, State.pushLQ, State.needsSwitch, h, h2]

/-- A write through the page helpers neither reads nor changes the channels. -/
theorem pgWriteM_setChan (s : State) (i : ChIx) (c : Chan) (p pm : Byte) (r : BitVec 4) (v m d : Word) :
    (s.setChan i c).pgWriteM p pm r v m d = (s.pgWriteM p pm r v m d).setChan i c := by
  by_cases h1 : s.skipWrites = true
  · simp only [pgWriteM_eq, setChan_skipWrites, h1, if_true]
  · by_cases h2 : p &&& pm = s.curPage &&& pm
    · simp only [pgWriteM_eq, setChan_skipWrites, setChan_curPage, h1, h2, if_true]
      rfl
    · simp only [pgWriteM_eq, setChan_skipWrites, setChan_curPage, h1, h2, if_false]
      rfl

end Sys2Proof.Machine
end

