-- ==== Sys2Proof/Laws/PerInstr.lean ====
section
/-! SUPPORT. For each operation: the record that encodes it decodes to it. -/

namespace Sys2Proof.Laws

theorem slotsOf_slotBytes {t : Slot} (h : t.wf = true) (rest : List Byte) :
    slotsOf (slotBytes t ++ rest) = (slotsOf rest).map (t :: ·) := by
  obtain ⟨had, val, mode⟩ := t
  simp only [Slot.wf, Bool.and_eq_true] at h
  cases had <;> simp [slotBytes, slotsOf, toInt_ofInt_of_fits h.1, toInt_ofInt_of_fits h.2]

theorem macroOf_macroBytes {m : MacroIn} (h : m.wf = true) : (slotsOf (macroBytes m)).bind macroOf = some m := by
  simp only [MacroIn.wf, Bool.and_eq_true] at h
  obtain ⟨⟨⟨⟨⟨⟨⟨⟨⟨⟨h1, h2⟩, h3⟩, h4⟩, h5⟩, h6⟩, h7⟩, h8⟩, h9⟩, h10⟩, h11⟩ := h
  have key : slotsOf (macroBytes m) = some [m.vol, m.panL, m.panR, m.arp, m.pitch, m.phaseReset, m.duty, m.ex1,
      m.ex2, m.ex3, m.ex4] := by
    have last := slotsOf_slotBytes h11 []
    rw [List.append_nil] at last
    simp only [macroBytes, List.append_assoc]
    rw [slotsOf_slotBytes h1, slotsOf_slotBytes h2, slotsOf_slotBytes h3, slotsOf_slotBytes h4,
      slotsOf_slotBytes h5, slotsOf_slotBytes h6, slotsOf_slotBytes h7, slotsOf_slotBytes h8,
      slotsOf_slotBytes h9, slotsOf_slotBytes h10, last]
    rfl
  rw [key]
  rfl

theorem chanOf_chanByte (i : ChIx) : chanOf (chanByte i) = some i := by
  have : i.val % 256 = i.val := Nat.mod_eq_of_lt (by omega)
  simp [chanOf, chanByte, this]

theorem opsMacro_macroBytes (f : ChIx → MacroIn → Instr) (i : ChIx) {m : MacroIn} (h : m.wf = true) :
    opsMacro f (chanByte i :: macroBytes m) = some (f i m) := by
  simp only [opsMacro, chanOf_chanByte, macroOf_macroBytes h]

theorem pairsOf_bytes (ps : List (Word × Word)) :
    pairsOf (ps.flatMap fun p => wordBytes p.1 ++ wordBytes p.2) = some ps := by
  induction ps with
  | nil => rfl
  | cons p t ih =>
    simp only [wordBytes_eq, List.cons_append, List.nil_append] at ih
    simp [List.flatMap_cons, pairsOf, ih]

/-- The record of a command is read back. -/
theorem cmdOf_cmdBytes (c : Cmd) : cmdOf (cmdBytes c) = some c := by
  simp [cmdOf, cmdBytes]

/-- A transaction word is read back, by its flavor and state (30_encoding.md R102). -/
theorem q120_decodes (isRead : Bool) (st : Byte) (a : BitVec 4) (p m d : Word) :
    decode (q120Record isRead st a p m d) =
      match isRead, st.toNat with
      | false, 4 => .ok (.lwrite a p m d)
      | true, 4 => .ok (.lread a p m d)
      | false, n => if n ≤ 3 then .ok (.bwr (st.setWidth 2) a p m d) else .error .notATransaction
      | true, n => if n ≤ 3 then .ok (.brd (st.setWidth 2) a p m d) else .error .notATransaction := by
  have ha : (a.setWidth 8).toNat ≤ 15 := by
    have := a.isLt
    simp only [BitVec.toNat_setWidth]
    omega
  have hb : (a.setWidth 8).setWidth 4 = a := by simp
  cases isRead <;> simp only [q120Record, decode, wordBytes_eq, List.cons_append, List.nil_append, decodeQ120,
    Bool.false_eq_true, if_false, if_true, wordOfBytes_byteOf, hb, ha] <;> split <;> simp_all

namespace Encodable

/-- A well-formed operation is what its record decodes to. -/
def Statement (i : Instr) : Prop := i.wf = true → decode (encode i) = .ok i

theorem reset : Statement (.reset) := fun _ => rfl

theorem generate (startOffset length : Word) : Statement (.generate startOffset length) := fun _ => by
  simp [decode, encode, decodeHop, orReject, ops2]

theorem tick (isSystemTick : Bool) : Statement (.tick isSystemTick) := fun _ => by
  simp [decode, encode, decodeHop, orReject, ops1]

theorem dispatch (cmd : Cmd) : Statement (.dispatch cmd) := fun _ => by
  simp [decode, encode, decodeHop, orReject, cmdOf_cmdBytes]

theorem setchan (n : Word) : Statement (.setchan n) := fun _ => by
  simp [decode, encode, decodeHop, orReject, ops1]

theorem mute (index : Word) (b : Bool) : Statement (.mute index b) := fun _ => by
  simp [decode, encode, decodeHop, orReject, ops2]

theorem resync : Statement (.resync) := fun _ => rfl

theorem rawwrite (addr value : Word) : Statement (.rawwrite addr value) := fun _ => by
  simp [decode, encode, decodeHop, orReject, ops2]

theorem rawbatch (pairs : List (Word × Word)) : Statement (.rawbatch pairs) := fun h => by
  have h' : pairs.length < 4294967296 := by simpa [Instr.wf] using h
  have h2 := pairsOf_bytes pairs
  simp only [wordBytes_eq, List.cons_append, List.nil_append] at h2
  simp [decode, encode, decodeHop, orReject, opsBatch, h2, Nat.mod_eq_of_lt h']

theorem snapshot : Statement (.snapshot) := fun _ => rfl

theorem effectname (code : Word) : Statement (.effectname code) := fun _ => by
  simp [decode, encode, decodeHop, orReject, ops1]

theorem setskip (b : Bool) : Statement (.setskip b) := fun _ => by
  simp [decode, encode, decodeHop, orReject, ops1]

theorem setlog (b : Bool) : Statement (.setlog b) := fun _ => by
  simp [decode, encode, decodeHop, orReject, ops1]

theorem noteOn (ch : Byte) (note : Word) : Statement (.noteOn ch note) := fun _ => by
  simp [decode, encode, cmdRecord, cmdOf_cmdBytes, orReject, decodeCmd]

theorem noteOff (ch : Byte) : Statement (.noteOff ch) := fun _ => by
  simp [decode, encode, cmdRecord, cmdOf_cmdBytes, orReject, decodeCmd]

theorem instrument (ch : Byte) (value : Word) : Statement (.instrument ch value) := fun _ => by
  simp [decode, encode, cmdRecord, cmdOf_cmdBytes, orReject, decodeCmd]

theorem volume (ch : Byte) (value : Word) : Statement (.volume ch value) := fun _ => by
  simp [decode, encode, cmdRecord, cmdOf_cmdBytes, orReject, decodeCmd]

theorem panning (ch : Byte) (value value2 : Word) : Statement (.panning ch value value2) := fun _ => by
  simp [decode, encode, cmdRecord, cmdOf_cmdBytes, orReject, decodeCmd]

theorem pitch (ch : Byte) (value : Word) : Statement (.pitch ch value) := fun _ => by
  simp [decode, encode, cmdRecord, cmdOf_cmdBytes, orReject, decodeCmd]

theorem porta (ch : Byte) (value value2 : Word) : Statement (.porta ch value value2) := fun _ => by
  simp [decode, encode, cmdRecord, cmdOf_cmdBytes, orReject, decodeCmd]

theorem samplePos (ch : Byte) (value : Word) : Statement (.samplePos ch value) := fun _ => by
  simp [decode, encode, cmdRecord, cmdOf_cmdBytes, orReject, decodeCmd]

theorem filterMode (ch : Byte) (value : Word) : Statement (.filterMode ch value) := fun _ => by
  simp [decode, encode, cmdRecord, cmdOf_cmdBytes, orReject, decodeCmd]

theorem filterK1 (ch : Byte) (value : Word) : Statement (.filterK1 ch value) := fun _ => by
  simp [decode, encode, cmdRecord, cmdOf_cmdBytes, orReject, decodeCmd]

theorem filterK2 (ch : Byte) (value : Word) : Statement (.filterK2 ch value) := fun _ => by
  simp [decode, encode, cmdRecord, cmdOf_cmdBytes, orReject, decodeCmd]

theorem envCount (ch : Byte) (value : Word) : Statement (.envCount ch value) := fun _ => by
  simp [decode, encode, cmdRecord, cmdOf_cmdBytes, orReject, decodeCmd]

theorem envLvramp (ch : Byte) (value : Word) : Statement (.envLvramp ch value) := fun _ => by
  simp [decode, encode, cmdRecord, cmdOf_cmdBytes, orReject, decodeCmd]

theorem envRvramp (ch : Byte) (value : Word) : Statement (.envRvramp ch value) := fun _ => by
  simp [decode, encode, cmdRecord, cmdOf_cmdBytes, orReject, decodeCmd]

theorem envK1ramp (ch : Byte) (value value2 : Word) : Statement (.envK1ramp ch value value2) := fun _ => by
  simp [decode, encode, cmdRecord, cmdOf_cmdBytes, orReject, decodeCmd]

theorem envK2ramp (ch : Byte) (value value2 : Word) : Statement (.envK2ramp ch value value2) := fun _ => by
  simp [decode, encode, cmdRecord, cmdOf_cmdBytes, orReject, decodeCmd]

theorem nopCmd (cmd : Cmd) : Statement (.nopCmd cmd) := fun h => by
  have h' : cmd.kind ∉ knownKinds := by simpa [Instr.wf] using h
  simp only [decode, encode, cmdOf_cmdBytes, Option.map_some, orReject, decodeCmd]
  split <;> first
    | rfl
    | exact absurd ((by decide : ∀ k : Byte, k.toNat ∈ knownKinds.map BitVec.toNat → k ∈ knownKinds) cmd.kind
        (by simp [knownKinds, *])) h' 

theorem lwrite (address : BitVec 4) (value mask delay : Word) : Statement (.lwrite address value mask delay) := fun _ => by simp [encode, q120_decodes]

theorem lread (address : BitVec 4) (dest mask delay : Word) : Statement (.lread address dest mask delay) := fun _ => by simp [encode, q120_decodes]

theorem bwr (step : BitVec 2) (address : BitVec 4) (value mask delay : Word) : Statement (.bwr step address value mask delay) := fun _ => by
  have hs := step.isLt
  have h3 : (step.setWidth 8).toNat ≤ 3 := by simp only [BitVec.toNat_setWidth]; omega
  simp only [encode, q120_decodes]
  split <;> simp_all

theorem brd (step : BitVec 2) (address : BitVec 4) (dest mask delay : Word) : Statement (.brd step address dest mask delay) := fun _ => by
  have hs := step.isLt
  have h3 : (step.setWidth 8).toNat ≤ 3 := by simp only [BitVec.toNat_setWidth]; omega
  simp only [encode, q120_decodes]
  split <;> simp_all

theorem edge : Statement (.edge) := fun _ => rfl

theorem edgeSvc : Statement (.edgeSvc) := fun _ => rfl

theorem edgeBusy : Statement (.edgeBusy) := fun _ => rfl

theorem edgeIdle : Statement (.edgeIdle) := fun _ => rfl

theorem edgeRd : Statement (.edgeRd) := fun _ => rfl

theorem edgeWfull : Statement (.edgeWfull) := fun _ => rfl

theorem edgeWstage : Statement (.edgeWstage) := fun _ => rfl

theorem edgeWcommit : Statement (.edgeWcommit) := fun _ => rfl

theorem tMacro (i : ChIx) (m : MacroIn) : Statement (.tMacro i m) := fun h => by
  simp [decode, encode, decodeCall, orReject, opsMacro_macroBytes _ i (show m.wf = true from h)]

theorem tVol (i : ChIx) : Statement (.tVol i) := fun _ => by
  simp [decode, encode, decodeCall, orReject, opsChan, chanOf_chanByte]

theorem tFilt (i : ChIx) (m : MacroIn) : Statement (.tFilt i m) := fun h => by
  simp [decode, encode, decodeCall, orReject, opsMacro_macroBytes _ i (show m.wf = true from h)]

theorem tEnv (i : ChIx) : Statement (.tEnv i) := fun _ => by
  simp [decode, encode, decodeCall, orReject, opsChan, chanOf_chanByte]

theorem tFreq (i : ChIx) (m : MacroIn) : Statement (.tFreq i m) := fun h => by
  simp [decode, encode, decodeCall, orReject, opsMacro_macroBytes _ i (show m.wf = true from h)]

theorem tKeyon (i : ChIx) (m : MacroIn) : Statement (.tKeyon i m) := fun h => by
  simp [decode, encode, decodeCall, orReject, opsMacro_macroBytes _ i (show m.wf = true from h)]

theorem tKeyoff (i : ChIx) : Statement (.tKeyoff i) := fun _ => by
  simp [decode, encode, decodeCall, orReject, opsChan, chanOf_chanByte]

theorem tFreqw (i : ChIx) : Statement (.tFreqw i) := fun _ => by
  simp [decode, encode, decodeCall, orReject, opsChan, chanOf_chanByte]

theorem enqw (addr value mask delay : Word) : Statement (.enqw addr value mask delay) := fun _ => by
  simp [decode, encode, decodeCall, orReject, ops4]

theorem enqr (addr dest mask delay : Word) : Statement (.enqr addr dest mask delay) := fun _ => by
  simp [decode, encode, decodeCall, orReject, ops4]

theorem expand : Statement (.expand) := fun _ => rfl

theorem pagesel (p : Word) (pm : Byte) : Statement (.pagesel p pm) := fun _ => by
  simp [decode, encode, decodeCall, orReject, opsPagesel]

theorem pgwritem (p : Word) (pm : Byte) (r v m d : Word) : Statement (.pgwritem p pm r v m d) := fun _ => by
  simp [decode, encode, decodeCall, orReject, ops4, opsPgwritem]

theorem pgwrite (p r v m d : Word) : Statement (.pgwrite p r v m d) := fun _ => by
  simp [decode, encode, decodeCall, orReject, ops4, opsPgwrite]

theorem irqAssert : Statement (.irqAssert) := fun _ => rfl

end Encodable

end Sys2Proof.Laws
end

