-- ==== Sys2Proof/Laws/Queue.lean ====
section
/-! SUPPORT. The register writes that the translator, the service phase and the commands make, as operations of the
machine, and what they leave alone. -/

namespace Sys2Proof.Machine

/-- What a state that differs in the shadow page and LQ alone has in common with the first. -/
theorem QueuesOnly.same {s t : State} (h : QueuesOnly s t) :
    t.cfg = s.cfg ∧ t.skipWrites = s.skipWrites ∧ t.ch = s.ch ∧ t.chanMax = s.chanMax ∧ t.muted = s.muted ∧
      t.pq = s.pq ∧ t.acc = s.acc ∧ t.pool = s.pool ∧ t.devPage = s.devPage ∧ t.trace = s.trace := by
  obtain ⟨p, ws, rfl, _, _⟩ := h
  exact ⟨rfl, rfl, rfl, rfl, rfl, rfl, rfl, rfl, rfl, rfl⟩

@[simp] theorem pgWriteM_cfg (s : State) (p pm : Byte) (r : BitVec 4) (v m d : Word) :
    (s.pgWriteM p pm r v m d).cfg = s.cfg := by
  rw [pgWriteM_eq]
  split
  · rfl
  · split <;> rfl

@[simp] theorem pgWriteM_ch (s : State) (p pm : Byte) (r : BitVec 4) (v m d : Word) :
    (s.pgWriteM p pm r v m d).ch = s.ch := by
  rw [pgWriteM_eq]
  split
  · rfl
  · split <;> rfl

@[simp] theorem pgWriteM_chanMax (s : State) (p pm : Byte) (r : BitVec 4) (v m d : Word) :
    (s.pgWriteM p pm r v m d).chanMax = s.chanMax := by
  rw [pgWriteM_eq]
  split
  · rfl
  · split <;> rfl

@[simp] theorem pgWriteM_skipWrites (s : State) (p pm : Byte) (r : BitVec 4) (v m d : Word) :
    (s.pgWriteM p pm r v m d).skipWrites = s.skipWrites := by
  rw [pgWriteM_eq]
  split
  · rfl
  · split <;> rfl

/-- PGWRITE of a legal page and register, as an operation (40_bus_queue.md R137). -/
theorem exec_pgwrite {p : Byte} (hp : p.toNat ≤ 127) (r : BitVec 4) (v m d : Word) (s : State) :
    exec (.pgwrite (p.setWidth 32) (r.setWidth 32) v m d) s = .next (s.pgWriteM p s.cfg.pmFull r v m d) := by
  simp only [exec, execPgwrite, withPage_byte hp, withAddress_setWidth]
  rfl

/-- A register of a legal page written whole. -/
theorem exec_regWrite {p : Byte} (hp : p.toNat ≤ 127) (r : BitVec 4) (v : Word) (s : State) :
    exec (regWrite p r v) s = .next (s.pgWriteM p s.cfg.pmFull r v allBits 0) :=
  exec_pgwrite hp r v allBits 0 s

/-- The control register of a channel written under a mask. -/
theorem exec_crFieldWrite (cfg : Cfg) (i : ChIx) (v m : Word) (s : State) :
    exec (crFieldWrite cfg i v m) s = .next (s.pgWriteM (pgA cfg i) cfg.pmCr cfg.regCr v m 0) := by
  simp only [crFieldWrite, exec, execPgwritem, withPage_byte (pgA_le cfg i), withAddress_setWidth]

/-- A run of operations split in two. -/
theorem runAll_append (xs ys : List Instr) (s : State) :
    runAll (xs ++ ys) s =
      match runAll xs s with
      | .next t => runAll ys t
      | .fault r => .fault r
      | .refused r => .refused r := by
  induction xs generalizing s with
  | nil => rfl
  | cons x xs ih =>
    simp only [List.cons_append, runAll]
    split
    · exact ih _
    · rfl
    · rfl

theorem runAll_cons_next {x : Instr} {xs : List Instr} {s t : State} (h : exec x s = .next t) :
    runAll (x :: xs) s = runAll xs t := by
  simp only [runAll, h]

/-- A list of page-addressed writes leaves everything but the shadow page and LQ. -/
theorem pageWrites_queuesOnly (ws : List PageWrite) (h : ∀ w ∈ ws, w.page.toNat ≤ 127) (s : State) :
    QueuesOnly s (s.pageWrites ws) := by
  induction ws generalizing s with
  | nil => exact QueuesOnly.refl s
  | cons w ws ih =>
    exact (pgWriteM_queuesOnly s (h w List.mem_cons_self) _ _ _ _ _).trans
      (ih (fun x hx => h x (List.mem_cons_of_mem _ hx)) _)

/-- Every page of the key-on sequence is legal. -/
theorem keyOnWrites_pages (cfg : Cfg) (n : BitVec 5) (i : ChIx) (m : MacroIn) (c : Chan) :
    ∀ w ∈ keyOnWrites cfg n i m c, w.page.toNat ≤ 127 := by
  have ha := pgA_le cfg i
  have hb := pgB_le cfg i
  simp [keyOnWrites, crWrite, plainWrite, ha, hb]

end Sys2Proof.Machine
end

