-- ==== Sys2Proof/Laws/Sequencer.lean ====
section
/-! SUPPORT. What a bus phase and a service phase can do: one lemma per case, and the case that is selected. -/

namespace Sys2Proof.Machine

/-! ### Which case -/

theorem busCase_busy {s : State} (h : 0 < s.cycle) : s.busCase = .busy := by
  simp [State.busCase, h]

theorem busCase_idle {s : State} (h : s.cycle = 0) (hq : s.pq = []) : s.busCase = .idle := by
  simp [State.busCase, h, hq]

theorem busCase_read {s : State} {w : PT} {rest : List PT} {d : Nat} (h : s.cycle = 0) (hq : s.pq = w :: rest)
    (hw : w.payload = .read d) : s.busCase = .rd := by
  simp [State.busCase, h, hq, hw]

theorem busCase_write {s : State} {w : PT} {rest : List PT} {v : Word} (h : s.cycle = 0) (hq : s.pq = w :: rest)
    (hw : w.payload = .write v) :
    s.busCase = if byteMask w = 0xFF then .wfull else if s.holdValid then .wcommit else .wstage := by
  simp [State.busCase, h, hq, hw]

/-! ### What each case does -/

theorem busPhase_busy {s : State} (h : 0 < s.cycle) :
    s.busPhase = { s with cycle := s.cycle - 1, edgeNo := s.edgeNo + 1 } := by
  rw [State.busPhase, busCase_busy h]
  rfl

theorem busPhase_idle {s : State} (h : s.cycle = 0) (hq : s.pq = []) :
    s.busPhase = { s with edgeNo := s.edgeNo + 1 } := by
  rw [State.busPhase, busCase_idle h hq]
  rfl

/-- The state after one byte of a read (41_edge_sequencer.md R153). -/
theorem busPhase_read {s : State} {w : PT} {rest : List PT} {d : Nat} (h : s.cycle = 0) (hq : s.pq = w :: rest)
    (hw : w.payload = .read d) :
    s.busPhase =
      { s with
        acc := s.acc.set d (mergeRead (s.acc.getD d 0) w.mask w.step (s.hostByte (ptAddr w)))
        wasRead := if w.step = 3 then true else s.wasRead
        cycle := if w.step = 3 then w.delay.toNat else 0
        pq := rest
        freeCtr := s.freeCtr + 1
        trace := s.trace ++ [.bus ⟨s.edgeNo, false, ptAddr w, s.hostByte (ptAddr w)⟩]
        edgeNo := s.edgeNo + 1 } := by
  rw [State.busPhase, busCase_read h hq hw]
  simp only [State.runCase, State.edgeRd, hq, hw, State.finishByte, State.memRead, State.note, State.countEdge, h,
    List.tail_cons]

/-- The state after a byte has been committed (41_edge_sequencer.md R155, R157). -/
def State.committed (s : State) (w : PT) (rest : List PT) (b : Byte) : State :=
  { s with
    writeLog := if s.logEnable then s.writeLog ++ [((ptAddr w).setWidth 8, b)] else s.writeLog
    holdValid := false
    cycle := if w.step = 3 then w.delay.toNat else 0
    pq := rest
    pool := Memory.write s.pool (poolAddr s.devPage (ptAddr w)) b
    devPage := if ptAddr w = busAddr s.cfg.regPage 3 then b.setWidth 7 else s.devPage
    trace := s.trace ++ [.bus ⟨s.edgeNo, true, ptAddr w, b⟩]
    edgeNo := s.edgeNo + 1 }

theorem busPhase_full {s : State} {w : PT} {rest : List PT} {v : Word} (h : s.cycle = 0) (hq : s.pq = w :: rest)
    (hw : w.payload = .write v) (hm : byteMask w = 0xFF) : s.busPhase = s.committed w rest (byteOf v w.step) := by
  rw [State.busPhase, busCase_write h hq hw, if_pos hm]
  simp only [State.runCase, State.edgeWfull, hq, hw, State.finishByte, State.commit, State.memWrite, State.note,
    State.countEdge, State.committed]
  cases s.logEnable <;> simp [h]

theorem busPhase_commit {s : State} {w : PT} {rest : List PT} {v : Word} (h : s.cycle = 0) (hq : s.pq = w :: rest)
    (hw : w.payload = .write v) (hm : byteMask w ≠ 0xFF) (hv : s.holdValid = true) :
    s.busPhase = s.committed w rest s.holdVal := by
  rw [State.busPhase, busCase_write h hq hw, if_neg hm, if_pos hv]
  simp only [State.runCase, State.edgeWcommit, hq, State.finishByte, State.commit, State.memWrite, State.note,
    State.countEdge, State.committed]
  cases s.logEnable <;> simp [h]

/-- The state after a partial byte has been staged (41_edge_sequencer.md R156). -/
theorem busPhase_stage {s : State} {w : PT} {rest : List PT} {v : Word} (h : s.cycle = 0) (hq : s.pq = w :: rest)
    (hw : w.payload = .write v) (hm : byteMask w ≠ 0xFF) (hv : s.holdValid = false) :
    s.busPhase =
      { s with
        holdVal := mergeByte (byteOf v w.step) (s.hostByte (ptAddr w)) (byteMask w)
        holdValid := true
        freeCtr := s.freeCtr + 1
        trace := s.trace ++ [.bus ⟨s.edgeNo, false, ptAddr w, s.hostByte (ptAddr w)⟩]
        edgeNo := s.edgeNo + 1 } := by
  rw [State.busPhase, busCase_write h hq hw, if_neg hm, if_neg (by simp [hv])]
  simp only [State.runCase, State.edgeWstage, hq, hw, State.memRead, State.note, State.countEdge]

/-- Every bus phase is one of the six cases, each with what it does. -/
theorem busPhase_cases (s : State) :
    (0 < s.cycle ∧ s.busPhase = { s with cycle := s.cycle - 1, edgeNo := s.edgeNo + 1 }) ∨
    (s.cycle = 0 ∧ s.pq = [] ∧ s.busPhase = { s with edgeNo := s.edgeNo + 1 }) ∨
    (∃ w rest, s.cycle = 0 ∧ s.pq = w :: rest ∧
      ((∃ d, w.payload = .read d ∧ s.busPhase =
          { s with
            acc := s.acc.set d (mergeRead (s.acc.getD d 0) w.mask w.step (s.hostByte (ptAddr w)))
            wasRead := if w.step = 3 then true else s.wasRead
            cycle := if w.step = 3 then w.delay.toNat else 0
            pq := rest
            freeCtr := s.freeCtr + 1
            trace := s.trace ++ [.bus ⟨s.edgeNo, false, ptAddr w, s.hostByte (ptAddr w)⟩]
            edgeNo := s.edgeNo + 1 }) ∨
        ∃ v, w.payload = .write v ∧
          ((byteMask w = 0xFF ∧ s.busPhase = s.committed w rest (byteOf v w.step)) ∨
            (byteMask w ≠ 0xFF ∧ s.holdValid = true ∧ s.busPhase = s.committed w rest s.holdVal) ∨
            (byteMask w ≠ 0xFF ∧ s.holdValid = false ∧ s.busPhase =
              { s with
                holdVal := mergeByte (byteOf v w.step) (s.hostByte (ptAddr w)) (byteMask w)
                holdValid := true
                freeCtr := s.freeCtr + 1
                trace := s.trace ++ [.bus ⟨s.edgeNo, false, ptAddr w, s.hostByte (ptAddr w)⟩]
                edgeNo := s.edgeNo + 1 })))) := by
  rcases Nat.eq_zero_or_pos s.cycle with h | h
  · right
    obtain hq | ⟨w, rest, hq⟩ : s.pq = [] ∨ ∃ w rest, s.pq = w :: rest := by
      cases s.pq with
      | nil => exact .inl rfl
      | cons w rest => exact .inr ⟨w, rest, rfl⟩
    · exact .inl ⟨h, hq, busPhase_idle h hq⟩
    · refine .inr ⟨w, rest, h, hq, ?_⟩
      cases hw : w.payload with
      | read d => exact .inl ⟨d, rfl, busPhase_read h hq hw⟩
      | write v =>
        refine .inr ⟨v, rfl, ?_⟩
        by_cases hm : byteMask w = 0xFF
        · exact .inl ⟨hm, busPhase_full h hq hw hm⟩
        · by_cases hv : s.holdValid = true
          · exact .inr (.inl ⟨hm, hv, busPhase_commit h hq hw hm hv⟩)
          · have hv' : s.holdValid = false := by simpa using hv
            exact .inr (.inr ⟨hm, hv', busPhase_stage h hq hw hm hv'⟩)
  · exact .inl ⟨h, busPhase_busy h⟩

/-! ### The service phase -/

/-- With no read just completed the service phase does nothing. -/
theorem irqService_noRead {s : State} (h : s.wasRead = false) : s.irqService = s := by
  simp [State.irqService, h]

/-- All that a service phase can do: the two flags change, writes join LQ with the shadow page they need, and at
most one channel's pending flag is cleared. -/
theorem irqService_cases (s : State) :
    ∃ a b : Bool, s.irqService = { s with wasRead := a, irqLatched := b } ∨
      ∃ (c : ChIx) (u : State), QueuesOnly { s with wasRead := a, irqLatched := b } u ∧
        s.irqService = u.modChan c fun x => { x with isReverseLoop := false } := by
  unfold State.irqService
  split
  · split
    · dsimp only
      split
      · exact ⟨_, _, .inl rfl⟩
      · split
        · exact ⟨_, _, .inr ⟨_, _, writeCr_queuesOnly _ _ _ _, rfl⟩⟩
        · exact ⟨_, _, .inl rfl⟩
    · exact ⟨_, _, .inl rfl⟩
  · exact ⟨s.wasRead, s.irqLatched, .inl rfl⟩

end Sys2Proof.Machine
end

