-- ==== Sys2Proof/Tests/Slice0.lean ====
section
/-! SUPPORT. The model's own tests: ill-formed operations refused, words written out from the spec's encodings
decoded, one step per operation on the vectors of 95_test_vectors.md, and a witness for the hypotheses of every
obligation. "Vn" is that file's vector n; the expected values are the vectors'. -/

namespace Sys2Proof.Tests

open Sys2Proof Sys2Proof.Machine

/-! ### Small states -/

/-- The register-pool device and the tables of program P3 and V40. -/
def tables : Cfg :=
  { Cfg.default with
    device := .pool
    noteFreqTab := [(48, 0x0800), (60, 1010), (62, 1000)]
    rateTab := [((8363, 8363, 48), 1), ((4000, 8363, 48), 2)]
    effectTab := [(3, some "pan")] }

/-- The store of program P3, with a note-mapped instrument and one whose sample is not valid (V43). -/
def store : Stores :=
  { version := 0
    insTab := [(0, { useNoteMap := false, initSample := some 0, noteMap := []
                     filterPreset := { mode := 3, k1 := 0x4000, k2 := 0x8000 }
                     envPreset := { ecount := 0x01FF, lVRamp := 0, rVRamp := 0, k1Ramp := 0xFE, k2Ramp := 0
                                    k1Slow := true, k2Slow := false } }),
               (1, { useNoteMap := true, initSample := none, noteMap := [(48, 0, 4000)]
                     filterPreset := default, envPreset := default }),
               (2, { useNoteMap := false, initSample := some 7, noteMap := [], filterPreset := default
                     envPreset := default })]
    sampleTab := [(0, some { centerRate := 8363, length := 100, loopStart := 10, loopEnd := 90
                             loopMode := .forward, reversed := false, offset := 0x800 }),
                  (7, none)] }

/-- A drained block before the register-pool device. -/
def base : State := { State.reset with cfg := tables, stores := store, lq := [], trace := [] }

/-- The block with one channel's state given. -/
def withCh (i : ChIx) (c : Chan) (s : State) : State := { s with ch := s.ch.set i c }

/-- A property of the next state; false of a fault or a refusal. -/
def after (r : Result State) (p : State → Bool) : Bool :=
  match r with
  | .next t => p t
  | .fault _ => false
  | .refused _ => false

/-- The refusal answered, if any. -/
def refusal (r : Result State) : Option Refusal :=
  match r with
  | .refused w => some w
  | .next _ => none
  | .fault _ => none

/-- A macro slot that was not delivered, of mode 1 (program P3). -/
def quiet : Slot := { had := false, val := 0, mode := 1 }

/-- A macro input that delivers nothing. -/
def silent : MacroIn := ⟨quiet, quiet, quiet, quiet, quiet, quiet, quiet, quiet, quiet, quiet, quiet⟩

/-- A full-mask logical write without delay. -/
def lw (a : BitVec 4) (v : Word) : LT := ⟨.write v, a, allBits, 0⟩

/-! ### Well-formedness refuses -/

theorem wf_batch_too_long (ps : List (Word × Word)) (h : ps.length = 2 ^ 32) :
    (Instr.rawbatch ps).wf = false := by
  rw [Instr.wf, h]; decide

theorem test_wf_batch_count : (Instr.rawbatch (List.replicate (2 ^ 32) (0, 0))).wf = false :=
  wf_batch_too_long _ List.length_replicate

theorem test_wf_nop_of_known_kind :
    (knownKinds.all fun k => !(Instr.nopCmd ⟨k, 0, 0, 0⟩).wf) = true := by decide

theorem test_wf_slot_range :
    Slot.wf ⟨true, 0x80000000, 0⟩ = false ∧ Slot.wf ⟨true, -0x80000001, 0⟩ = false ∧
    Slot.wf ⟨true, 0, 0x80000000⟩ = false ∧ Slot.wf ⟨true, 0, -0x80000001⟩ = false ∧
    Slot.wf ⟨true, 0x7FFFFFFF, -0x80000000⟩ = true := by decide

/-- Eleven macro inputs, each with one slot out of range. -/
def badMacros : List MacroIn :=
  let bad : Slot := ⟨true, 0x80000000, 0⟩
  [{ silent with vol := bad }, { silent with panL := bad }, { silent with panR := bad },
   { silent with arp := bad }, { silent with pitch := bad }, { silent with phaseReset := bad },
   { silent with duty := bad }, { silent with ex1 := bad }, { silent with ex2 := bad },
   { silent with ex3 := bad }, { silent with ex4 := bad }]

theorem test_wf_macro_operands :
    (badMacros.all fun m => !(Instr.tMacro 0 m).wf && !(Instr.tFilt 0 m).wf && !(Instr.tFreq 0 m).wf &&
      !(Instr.tKeyon 0 m).wf) = true := by decide

/-! ### Decoding: words written out from the spec's encodings -/

/-- V54 and 30_encoding.md R105, R107. -/
theorem test_decode_hop :
    (([([0x00], .reset),
       ([0x01, 0, 0, 0, 0, 0, 0, 0, 1], .generate 0 1),
       ([0x02, 0, 0, 0, 1], .tick true),
       ([0x03, 0x01, 0x00, 0, 0, 0, 0x30, 0, 0, 0, 0], .dispatch ⟨1, 0, 48, 0⟩),
       ([0x04, 0, 0, 0, 7], .setchan 7),
       ([0x05, 0, 0, 0, 3, 0, 0, 0, 1], .mute 3 true),
       ([0x06], .resync),
       ([0x07, 0, 0, 0, 1, 0x12, 0x34, 0x56, 0x78], .rawwrite 1 0x12345678),
       ([0x08, 0, 0, 0, 1, 0, 0, 0, 0xF, 1, 2, 3, 4], .rawbatch [(0xF, 0x01020304)]),
       ([0x09], .snapshot),
       ([0x0A, 0, 0, 1, 2], .effectname 0x102),
       ([0x0B, 0, 0, 0, 1], .setskip true),
       ([0x0C, 0, 0, 0, 0], .setlog false)] : List (List Byte × Instr)).all
      fun p => decode ⟨.hop, p.1⟩ = .ok p.2) = true := by decide

/-- V37, V39, V44, V45, V46 and 30_encoding.md R104, R106. -/
theorem test_decode_cmd :
    (([(0x01000000003000000000, .noteOn 0 48), (0x02050000000000000000, .noteOff 5),
       (0x03000000000300000000, .instrument 0 3), (0x04000000008000000000, .volume 0 128),
       (0x0500000000FF00000080, .panning 0 255 128), (0x0600FFFFFFF400000000, .pitch 0 (-12)),
       (0x0702000000040000003C, .porta 2 4 60), (0x08000000000200000000, .samplePos 0 2),
       (0x10010000000300000000, .filterMode 1 3), (0x11000001FFFF00000000, .filterK1 0 0x1FFFF),
       (0x121F0000800000000000, .filterK2 31 0x8000), (0x1800000001FF00000000, .envCount 0 0x1FF),
       (0x19000000018000000000, .envLvramp 0 0x180), (0x1A02FFFFFFFF00000000, .envRvramp 2 (-1)),
       (0x1B01FFFFFFFE00000001, .envK1ramp 1 (-2) 1), (0x1C030000000700000000, .envK2ramp 3 7 0),
       (0xFF630000000100000002, .nopCmd ⟨0xFF, 0x63, 1, 2⟩)] : List (Nat × Instr)).all
      fun p => decodeTableWord 80 p.1 = some p.2) = true := by decide

/-- V1, V3, V4 and 30_encoding.md R102; a state above 4, an address above 0x0F and a bit above 112 are no
transaction. -/
theorem test_decode_q120 :
    (([(0x00040100012345FFFFFFFF00000000, some (.lwrite 1 0x12345 allBits 0)),
       (0x01040E000000000000009F00000000, some (.lread 0xE 0 0x9F 0)),
       (0x00030112345678FFFFFFFF00000005, some (.bwr 3 1 0x12345678 allBits 5)),
       (0x01020E000000010000009F00000003, some (.brd 2 0xE 1 0x9F 3)),
       (0x00050100012345FFFFFFFF00000000, none), (0x00041000012345FFFFFFFF00000000, none),
       (0x02040100012345FFFFFFFF00000000, none)] : List (Nat × Option Instr)).all
      fun p => decodeTableWord 120 p.1 = p.2) = true := by decide

/-- 30_encoding.md R108; the bits a case does not look at may hold anything. -/
theorem test_decode_selector :
    (([(0b10000, some .edgeBusy), (0b11111, some .edgeBusy), (0b01000, some .edgeIdle), (0b00111, some .edgeRd),
       (0b00100, some .edgeRd), (0b00010, some .edgeWfull), (0b00000, some .edgeWstage),
       (0b00001, some .edgeWcommit)] : List (Nat × Option Instr)).all
      fun p => decodeTableWord 5 p.1 = p.2) = true := by decide

/-- A slot as log 2 lays it out: had, val, mode. -/
def slotRow (had val mode : Byte) : List Byte := [had, 0, 0, 0, val, 0, 0, 0, mode]

/-- Eleven slots, `val` counting up. -/
def macroRow : List Byte :=
  slotRow 1 1 0 ++ slotRow 0 2 1 ++ slotRow 0 3 1 ++ slotRow 0 4 1 ++ slotRow 0 5 1 ++ slotRow 0 6 1 ++
    slotRow 0 7 1 ++ slotRow 0 8 1 ++ slotRow 0 9 1 ++ slotRow 0 10 1 ++ slotRow 1 11 2

/-- The macro input of `macroRow`. -/
def macroOfRow : MacroIn :=
  ⟨⟨true, 1, 0⟩, ⟨false, 2, 1⟩, ⟨false, 3, 1⟩, ⟨false, 4, 1⟩, ⟨false, 5, 1⟩, ⟨false, 6, 1⟩, ⟨false, 7, 1⟩,
    ⟨false, 8, 1⟩, ⟨false, 9, 1⟩, ⟨false, 10, 1⟩, ⟨true, 11, 2⟩⟩

/-- The model's own serialisation of the operations without a bit pattern (log 2). -/
theorem test_decode_call :
    (([([0], .edge), ([1], .edgeSvc), (2 :: 31 :: macroRow, .tMacro 31 macroOfRow), ([3, 1], .tVol 1),
       (4 :: 2 :: macroRow, .tFilt 2 macroOfRow), ([5, 3], .tEnv 3), (6 :: 4 :: macroRow, .tFreq 4 macroOfRow),
       (7 :: 5 :: macroRow, .tKeyon 5 macroOfRow), ([8, 6], .tKeyoff 6), ([9, 7], .tFreqw 7),
       ([10, 0, 0, 0, 1, 0, 1, 0x23, 0x45, 0xFF, 0xFF, 0xFF, 0xFF, 0, 0, 0, 5], .enqw 1 0x12345 allBits 5),
       ([11, 0, 0, 0, 0xE, 0, 0, 0, 0, 0, 0, 0, 0x9F, 0, 0, 0, 0], .enqr 0xE 0 0x9F 0), ([12], .expand),
       ([13, 0, 0, 0, 3, 0x5F], .pagesel 3 0x5F),
       ([14, 0, 0, 0, 4, 0x5F, 0, 0, 0, 0, 0, 0, 0, 8, 0, 0, 0, 0x78, 0, 0, 0, 1], .pgwritem 4 0x5F 0 8 0x78 1),
       ([15, 0, 0, 0, 4, 0, 0, 0, 3, 0, 0, 0, 8, 0, 0, 0, 0x78, 0, 0, 0, 1], .pgwrite 4 3 8 0x78 1),
       ([16], .irqAssert)] : List (List Byte × Instr)).all
      fun p => decode ⟨.call, p.1⟩ = .ok p.2) = true := by decide

theorem test_decode_rejects :
    decode ⟨.hop, [0x0D]⟩ = .error (.unknownHostOperation 0x0D) ∧ decode ⟨.hop, [0x00, 0]⟩ = .error .wrongOperands ∧
    decode ⟨.cmd, [1, 0]⟩ = .error .notACommand ∧ decode ⟨.edge, [32]⟩ = .error .notASelector ∧
    decode ⟨.call, [17]⟩ = .error (.unknownCall 17) ∧ decode ⟨.call, [3, 32]⟩ = .error .wrongOperands := by decide

/-- A word of the opcode table placed at the port is what the next step runs. -/
theorem test_step_runs_placed_word :
    after (step (State.reset.withFetchWord 80 0x04000000008000000000)) (fun t =>
      (t.chan 0).outVol = 0x8080 && t.code == some 1 && t.port.isEmpty) = true ∧
    after (step (State.reset.withFetchWord 8 0x10)) (fun t => t.cycle == 0 && t.edgeNo == 1) = true := by decide

/-! ### One step each: the queue (V1 to V9) -/

theorem test_enqw : after (exec (.enqw 1 0x12345 allBits 0) base) (fun t => t.lq = [lw 1 0x12345]) = true ∧
    after (exec (.enqw 1 5 allBits 0) { base with skipWrites := true }) (fun t => t.lq.isEmpty) = true := by decide

theorem test_enqr : after (exec (.enqr 0xE 0 0x9F 0) { base with skipWrites := true })
    (fun t => t.lq = [⟨.read 0, 0xE, 0x9F, 0⟩]) = true ∧
    refusal (exec (.enqr 0xE 1 0x9F 0) base) = some .accumulatorOutOfRange := by decide

/-- V4. -/
theorem test_expand : after (exec .expand { base with lq := [⟨.write 0x12345678, 1, allBits, 5⟩] }) (fun t =>
    t.lq.isEmpty && t.pq.map (fun w => (ptAddr w, byteOf 0x12345678 w.step, byteMask w, w.delay)) ==
      [(0x04, 0x12, 0xFF, 0), (0x05, 0x34, 0xFF, 0), (0x06, 0x56, 0xFF, 0), (0x07, 0x78, 0xFF, 5)]) = true := by
  decide

/-- V6. -/
theorem test_pagesel :
    after (exec (.pagesel 3 0x5F) { base with curPage := 0x23 }) (fun t =>
      t.lq.isEmpty && t.curPage == 0x23) = true ∧
    after (exec (.pagesel 3 0xFF) { base with curPage := 0x23 }) (fun t =>
      t.lq == [lw 0xF 3] && t.curPage == 3) = true := by decide

/-- V7, V8. -/
theorem test_pgwritem :
    after (exec (.pgwritem 4 0x5F 0 0 allBits 0) { base with curPage := 3 }) (fun t =>
      t.lq == [lw 0xF 4, lw 0 0] && t.curPage == 4) = true ∧
    after (exec (.pgwritem 0 0x60 0xB 7 allBits 0) { base with curPage := 0x25 }) (fun t =>
      t.lq == [lw 0xF 0, lw 0xB 7] && t.curPage == 0) = true := by decide

/-- V9, and the same without skipWrites. -/
theorem test_pgwrite :
    after (exec (.pgwrite 0x23 3 0x00400000 allBits 0) { base with skipWrites := true }) (fun t =>
      t.lq.isEmpty && t.curPage == 0) = true ∧
    after (exec (.pgwrite 0x23 3 0x00400000 allBits 0) base) (fun t =>
      t.lq == [lw 0xF 0x23, lw 3 0x00400000] && t.curPage == 0x23) = true := by decide

/-- The Q120 word of V3 as a record joins behind what waits. -/
theorem test_lread : after (exec (.lread 0xE 0 0x9F 0) { base with lq := [lw 1 0] }) (fun t =>
    t.lq.isEmpty && t.pq.length == 8 &&
      (t.pq.getLast? == some ⟨.read 0, 3, 0xE, 0x9F, 0⟩)) = true := by decide

theorem test_lwrite : after (exec (.lwrite 1 0x12345678 allBits 5) base) (fun t =>
    t.pq.map (·.delay) == [0, 0, 0, 5]) = true := by decide

/-! ### The edge sequencer (V10 to V19, V55) -/

/-- V10. -/
theorem test_bwr : after (exec (.bwr 3 1 0x12345678 allBits 5) { base with logEnable := true }) (fun t =>
    t.trace == [.bus ⟨0, true, 0x07, 0x78⟩] && t.cycle == 5 && t.pq.isEmpty && t.writeLog == [(0x07, 0x78)] &&
      t.pool == [(7, 0x78)]) = true := by decide

theorem test_edge_wfull : after (exec .edgeWfull { base with pq := [⟨.write 0x12345678, 3, 1, allBits, 5⟩] })
    (fun t => t.trace == [.bus ⟨0, true, 0x07, 0x78⟩] && t.cycle == 5 && t.writeLog.isEmpty) = true := by decide

/-- The physical transaction of V11 before a device byte 0xE5. -/
def partialByte : State :=
  { base with pq := [⟨.write 0x08, 3, 0, 0x78, 0⟩], pool := [(3, 0xE5)], logEnable := true }

theorem test_edge_wstage : after (exec .edgeWstage partialByte) (fun t =>
    t.holdVal == 0x8D && t.holdValid && t.pq == partialByte.pq && t.writeLog.isEmpty &&
      t.trace == [.bus ⟨0, false, 0x03, 0xE5⟩]) = true := by decide

theorem test_edge_wcommit : after (exec .edgeWcommit { partialByte with holdVal := 0x8D, holdValid := true })
    (fun t => t.pool == [(3, 0x8D)] && !t.holdValid && t.pq.isEmpty && t.writeLog == [(0x03, 0x8D)]) = true := by
  decide

theorem test_edge_busy : after (exec .edgeBusy { base with cycle := 2 }) (fun t => t.cycle == 1) = true := by decide

theorem test_edge_idle : after (exec .edgeIdle base) (fun t => t == { base with edgeNo := 1 }) = true := by decide

/-- V14. -/
theorem test_edge_rd : after (exec .edgeRd { base with acc := [0x80], pq := [⟨.read 0, 3, 0xE, 0x9F, 0⟩]
                                                       pool := [(0x3B, 0x03)] })
    (fun t => t.acc == [3] && t.wasRead && t.pq.isEmpty && t.trace == [.bus ⟨0, false, 0x3B, 0x03⟩]) = true := by
  decide

/-- V15. -/
theorem test_brd : after (exec (.brd 0 0xE 0 0x9F 0) { base with pool := [(0x38, 0xAB)] })
    (fun t => t.acc == [0x80] && !t.wasRead && t.pq.isEmpty && t.trace == [.bus ⟨0, false, 0x38, 0xAB⟩]) = true := by
  decide

/-- The reversed channel 3 of V18. -/
def reversing : State :=
  withCh 3 { Chan.init with isReverseLoop := true, pcm.reversed := true }
    { base with acc := [3], irqLatched := true, wasRead := true, curPage := 0x10 }

/-- V18, V17. -/
theorem test_edge_svc :
    after (exec .edgeSvc reversing) (fun t =>
      t.lq == [lw 0xF 3, ⟨.write 0, 0, 0x40, 0⟩] && t.curPage == 3 && !t.wasRead && !t.irqLatched &&
        !(t.chan 3).isReverseLoop) = true ∧
    after (exec .edgeSvc { reversing with acc := [0x83] }) (fun t =>
      t.lq.isEmpty && !t.wasRead && !t.irqLatched && (t.chan 3).isReverseLoop) = true := by decide

/-- V16, V19. -/
theorem test_edge :
    after (exec .edge { base with wasRead := true, cycle := 1 }) (fun t =>
      !t.wasRead && t.cycle == 0 && t.lq.isEmpty) = true ∧
    after (exec .edge base) (fun t => t == { base with edgeNo := 1 }) = true := by decide

/-- V55. -/
theorem test_irq_assert : after (exec .irqAssert { base with skipWrites := true, lq := [lw 1 0] }) (fun t =>
    t.irqLatched && t.lq == [lw 1 0, ⟨.read 0, 0xE, 0x9F, 0⟩]) = true := by decide

/-! ### The translator (V20 to V35) -/

/-- V20, V23. -/
theorem test_t_macro :
    after (exec (.tMacro 0 { silent with vol := ⟨true, 0x8000, 1⟩ })
      (withCh 0 { Chan.init with vol := 0xFF, outVol := 0x7FFF } base)) (fun t =>
        (t.chan 0).outVol == 0x8000 && (t.chan 0).volChanged) = true ∧
    after (exec (.tMacro 0 { silent with ex1 := ⟨false, 5, 0⟩, ex2 := ⟨true, 0x4000, 0⟩ }) base) (fun t =>
      (t.chan 0).k2Offs == 5 && (t.chan 0).filter.k2 == 0x4000 && (t.chan 0).filterChanged.k2 &&
        (t.chan 0).k1Offs == 0) = true := by decide

/-- V24. -/
theorem test_t_macro_delta :
    after (exec (.tMacro 0 { silent with ex1 := ⟨true, 0x100, 2⟩ })
      (withCh 0 { Chan.init with filter.k1 := 0xFFF0 } base)) (fun t => (t.chan 0).filter.k1 == 0xFFFF) = true ∧
    after (exec (.tMacro 0 { silent with ex1 := ⟨true, -0x100, 2⟩ })
      (withCh 0 { Chan.init with filter.k1 := 0x0010 } base)) (fun t => (t.chan 0).filter.k1 == 0) = true := by
  decide

/-- The channel 2 of V21. -/
def loud : State :=
  withCh 2 { Chan.init with outVol := 0xFFFF, outLVol := 0x8000, outRVol := 0xFFFF, volChanged := true }
    { base with curPage := 2 }

/-- V21, V22. -/
theorem test_t_vol :
    after (exec (.tVol 2) loud) (fun t =>
      t.lq == [lw 2 0x8000, lw 4 0xFFFF] && (t.chan 2).resLVol == 0x8000 && !(t.chan 2).volChanged) = true ∧
    after (exec (.tVol 2) { loud with muted := loud.muted.set 2 true }) (fun t =>
      t.lq == [lw 2 0, lw 4 0]) = true := by decide

/-- The channel 0 of V26 and V27. -/
def changed : Chan :=
  { Chan.init with
    filter := ⟨2, 0x2222, 0x1111⟩
    env := { ecount := 0x100, lVRamp := 1, rVRamp := 0xFF, k1Ramp := 0xFE, k2Ramp := 0x10, k1Slow := true
             k2Slow := false }
    filterChanged := FilterFlags.all true, envChanged := EnvFlags.all true }

/-- V26, V29. -/
theorem test_t_filt :
    after (exec (.tFilt 0 silent) (withCh 0 changed base)) (fun t =>
      t.lq == [⟨.write 0x200, 0, 0x300, 0⟩, lw 7 0x1111, lw 9 0x2222] && !(t.chan 0).filterChanged.any) = true ∧
    after (exec (.tFilt 0 silent) (withCh 0 { changed with keyOn := true } base)) (fun t =>
      t.lq.isEmpty && !(t.chan 0).filterChanged.any) = true := by decide

/-- V27, V29. -/
theorem test_t_env :
    after (exec (.tEnv 0) (withCh 0 changed base)) (fun t =>
      t.lq == [lw 3 0x100, lw 5 0xFF00, lw 6 0x100, lw 8 0x1000, lw 0xA 0xFE01] &&
        !(t.chan 0).envChanged.any) = true ∧
    after (exec (.tEnv 0) (withCh 0 { changed with keyOn := true } base)) (fun t =>
      t.lq.isEmpty && !(t.chan 0).envChanged.any) = true := by decide

/-- V30. -/
theorem test_t_freq :
    after (exec (.tFreq 0 silent) (withCh 0 { Chan.init with active := true, freqChanged := true
                                                             baseFreq := 0x20000 } base)) (fun t =>
      t.lq == [lw 1 0x1FFFF] && !(t.chan 0).freqChanged) = true ∧
    after (exec (.tFreq 0 silent) (withCh 0 { Chan.init with active := true, freqChanged := true
                                                             baseFreq := -5 } base)) (fun t =>
      t.lq == [lw 1 0]) = true := by decide

/-- The channel 0 of V34, its loop mode open. -/
def keyed (mode : LoopMode) (rev : Bool) : Chan :=
  { Chan.init with
    keyOn := true
    pcm := { index := some 0, start := 0x00400000, endAddr := 0x00431800, loopStart := 0x00405000
             loopEnd := 0x0042C800, length := 100, bank := 0, reversed := rev, loopMode := mode } }

/-- V34, V35: rows 3, 7, 8 and 18 of the key-on sequence. -/
theorem test_t_keyon :
    after (exec (.tKeyon 0 silent) (withCh 0 (keyed .oneshot false) base)) (fun t =>
      t.lq.length == 23 && t.lq[3]? == some (lw 3 0x00400000) && t.lq[9]? == some (lw 1 0x00400000) &&
        t.lq[10]? == some (lw 2 0x00431800) && t.lq[21]? == some ⟨.write 0, 0, 0x78, 0⟩) = true ∧
    after (exec (.tKeyon 0 silent) (withCh 0 (keyed .backward true) base)) (fun t =>
      t.lq[3]? == some (lw 3 0x00431800) && t.lq[21]? == some ⟨.write 0x68, 0, 0x78, 0⟩ &&
        (t.chan 0).isReverseLoop) = true := by decide

/-- V32. -/
theorem test_t_keyoff :
    after (exec (.tKeyoff 5) (withCh 5 { Chan.init with keyOff := true } { base with curPage := 0x25 })) (fun t =>
      t.lq == [lw 0 0]) = true ∧
    after (exec (.tKeyoff 5) (withCh 5 { Chan.init with keyOff := true } { base with curPage := 6 })) (fun t =>
      t.lq == [lw 0xF 5, lw 0 0] && t.curPage == 5) = true := by decide

theorem test_t_freqw :
    after (exec (.tFreqw 0) (withCh 0 { Chan.init with active := true, freq := 0x1FFFF } base)) (fun t =>
      t.lq == [lw 1 0x1FFFF]) = true ∧
    after (exec (.tFreqw 0) (withCh 0 { Chan.init with freq := 5 } base)) (fun t => t.lq.isEmpty) = true := by decide

/-! ### Commands (V37 to V45) -/

/-- The store is that of the step: the same command, the same state, another store presented (R13). -/
theorem test_store_of_the_step :
    let other : Stores := { store with sampleTab := [(0, none)] }
    let rec1 : OpRecord := ⟨.cmd, [1, 0, 0, 0, 0, 48, 0, 0, 0, 0]⟩
    after (step { base with port := [⟨rec1, store⟩] }) (fun t => (t.chan 0).pcm.index == some 0) = true ∧
    after (step { base with port := [⟨rec1, other⟩] }) (fun t => (t.chan 0).pcm.index == none) = true := by decide

/-- Program P3's NOTE_ON; the note-mapped instrument. -/
theorem test_note_on :
    after (exec (.noteOn 0 48) base) (fun t => let c := t.chan 0
      c.baseFreq == 0x800 && c.pcm.start == 0x00400000 && c.pcm.endAddr == 0x00431800 &&
        c.pcm.loopStart == 0x00405000 && c.pcm.loopEnd == 0x0042C800 && c.filter == ⟨3, 0x4000, 0x8000⟩ &&
        c.active && c.keyOn && c.volChanged && c.filterChanged.any && t.code == some 1) = true ∧
    after (exec (.noteOn 0 48) (withCh 0 { Chan.init with ins := 1 } base)) (fun t =>
      (t.chan 0).freqOffs == 2 && (t.chan 0).pcm.index == some 0) = true := by decide

/-- V43. -/
theorem test_note_on_without_sample :
    after (exec (.noteOn 0 48) (withCh 0 { Chan.init with ins := 2, pcm.index := some 4 } base)) (fun t =>
      (t.chan 0).pcm.index == none && (t.chan 0).keyOn && (t.chan 0).envChanged == EnvFlags.all true) = true := by
  decide

theorem test_note_off : after (exec (.noteOff 5) (withCh 5 { Chan.init with active := true } base)) (fun t =>
    !(t.chan 5).active && (t.chan 5).keyOff) = true ∧
    refusal (exec (.noteOff 32) base) = some .channelOutOfRange := by decide

theorem test_instrument : after (exec (.instrument 31 3) base) (fun t => (t.chan 31).ins == 3) = true := by decide

/-- V37. -/
theorem test_volume :
    (([(128, 0x8080), (255, 0xFFFF), (200, 0xC8C8), (300, 0xFFFF)] : List (Word × Half)).all fun p =>
      after (exec (.volume 0 p.1) base) (fun t => (t.chan 0).outVol == p.2 && (t.chan 0).volChanged)) = true ∧
    after (exec (.volume 0 0xFFFFFFFB) base) (fun t => (t.chan 0).outVol == 0 && !(t.chan 0).volChanged) = true := by
  decide

/-- V39, and its repetition. -/
theorem test_panning :
    after (exec (.panning 0 255 128) base) (fun t =>
      (t.chan 0).outLVol == 0xFFFF && (t.chan 0).outRVol == 0x8080 && (t.chan 0).volChanged) = true ∧
    after (exec (.panning 0 255 128) (withCh 0 { Chan.init with lVol := 255, rVol := 128 } base)) (fun t =>
      !(t.chan 0).volChanged) = true := by decide

theorem test_pitch : after (exec (.pitch 0 (-12)) base) (fun t =>
    (t.chan 0).pitch == -12 && (t.chan 0).freqChanged) = true := by decide

/-- V40: the third call upward; the second call downward. -/
theorem test_porta :
    after (exec (.porta 2 4 60) (withCh 2 { Chan.init with baseFreq := 1008, inPorta := true } base)) (fun t =>
      (t.chan 2).baseFreq == 1010 && t.code == some 2 && !(t.chan 2).inPorta) = true ∧
    after (exec (.porta 2 4 62) (withCh 2 { Chan.init with baseFreq := 1006 } base)) (fun t =>
      (t.chan 2).baseFreq == 1002 && t.code == some 1 && (t.chan 2).inPorta) = true := by decide

/-- V41. -/
theorem test_sample_pos :
    after (exec (.samplePos 0 2) (withCh 0 (keyed .forward false) base)) (fun t =>
      t.lq == [lw 0xF 0x20, lw 3 0x00401000] && t.curPage == 0x20) = true ∧
    after (exec (.samplePos 0 2) (withCh 0 (keyed .forward true) base)) (fun t =>
      t.lq == [lw 0xF 0x20, lw 3 0x00430800]) = true := by decide

/-- V41: the positions that are ignored. -/
theorem test_sample_pos_outside :
    (([100, 0xFFFFFFFF] : List Word).all fun p =>
      after (exec (.samplePos 0 p) (withCh 0 (keyed .forward false) base)) (fun t =>
        t.lq.isEmpty && t.code == some 1)) = true := by decide

/-- V45. -/
theorem test_filter_mode : after (exec (.filterMode 0 7) base) (fun t =>
    (t.chan 0).filter.mode == 3 && (t.chan 0).filterChanged.mode) = true := by decide

theorem test_filter_k1 : after (exec (.filterK1 0 0x1FFFF) (withCh 0 { Chan.init with filter.k1 := 0xFFFF } base))
    (fun t => !(t.chan 0).filterChanged.k1) = true := by decide

theorem test_filter_k2 : after (exec (.filterK2 0 0x18000) base) (fun t =>
    (t.chan 0).filter.k2 == 0x8000 && (t.chan 0).filterChanged == ⟨false, false, true⟩) = true := by decide

theorem test_env_count : after (exec (.envCount 0 0x101FF) base) (fun t =>
    (t.chan 0).env.ecount == 0x1FF && (t.chan 0).envChanged == ⟨true, false, false, false, false⟩) = true := by
  decide

theorem test_env_lvramp : after (exec (.envLvramp 0 0x180) base) (fun t =>
    (t.chan 0).env.lVRamp == 0x80 && (t.chan 0).envChanged == ⟨false, true, false, false, false⟩) = true := by
  decide

theorem test_env_rvramp : after (exec (.envRvramp 0 (-1)) base) (fun t =>
    (t.chan 0).env.rVRamp == 0xFF && (t.chan 0).envChanged == ⟨false, false, true, false, false⟩) = true := by
  decide

theorem test_env_k1ramp : after (exec (.envK1ramp 1 (-2) 1) base) (fun t =>
    (t.chan 1).env.k1Ramp == 0xFE && (t.chan 1).env.k1Slow &&
      (t.chan 1).envChanged == ⟨false, false, false, true, false⟩) = true := by decide

theorem test_env_k2ramp : after (exec (.envK2ramp 1 0 1) base) (fun t =>
    (t.chan 1).env.k2Ramp == 0 && (t.chan 1).env.k2Slow &&
      (t.chan 1).envChanged == ⟨false, false, false, false, true⟩) = true := by decide

/-- V44. -/
theorem test_nop_cmd : after (exec (.nopCmd ⟨0xFF, 0x63, 1, 2⟩) base) (fun t =>
    t == { base with code := some 1 }) = true := by decide

/-! ### Host operations (V47 to V53) -/

/-- V47. -/
theorem test_reset :
    after (exec .reset { reversing with cycle := 9 }) (fun t =>
      t.lq == [lw 0xF 0, lw 0xB 0x1F] && t.cycle == 0 && t.acc == [0x80] && t.curPage == 0 && !t.irqLatched &&
        !(t.chan 3).isReverseLoop) = true ∧
    after (exec .reset { base with skipWrites := true }) (fun t => t.lq.isEmpty) = true := by decide

/-- V53: one sample with an interrupt and one edge, clamped outputs; no sample. -/
theorem test_generate :
    after (exec (.generate 5 1) { base with lq := [lw 1 0x12345678]
                                            tickIn := [⟨[.irq, .risingEdge], 40000, -40000⟩] }) (fun t =>
      t.trace == [.tick, .bus ⟨0, true, 4, 0x12⟩] && t.pq.length == 3 && t.lq == [⟨.read 0, 0xE, 0x9F, 0⟩] &&
        t.samples == [⟨5, 32767, BitVec.ofInt 16 (-32768)⟩]) = true ∧
    after (exec (.generate 5 0) { base with lq := [lw 1 0] }) (fun t =>
      t.lq == [lw 1 0] && t.trace.isEmpty && t.samples.isEmpty) = true := by decide

/-- V50, V49: a muted channel's writes; the flags above chanMax stay. -/
theorem test_tick :
    after (exec (.tick true) (withCh 3 { Chan.init with outVol := 0xC8C8, outLVol := 0xFFFF, volChanged := true }
      { base with muted := base.muted.set 3 true, macroIn := List.replicate 4 ⟨silent, 0⟩, chanMax := 3 }))
      (fun t => t.lq == [lw 0xF 3, lw 2 0, lw 4 0] && t.macroIn.isEmpty) = true ∧
    after (exec (.tick true) (withCh 1 { Chan.init with volChanged := true }
      { base with macroIn := [⟨silent, 0⟩], chanMax := 0 })) (fun t =>
        t.lq.isEmpty && (t.chan 1).volChanged) = true := by decide

theorem test_dispatch : after (exec (.dispatch ⟨4, 0, 128, 0⟩) base) (fun t => (t.chan 0).outVol == 0x8080) = true ∧
    refusal (exec (.dispatch ⟨4, 32, 128, 0⟩) base) = some .channelOutOfRange := by decide

/-- V48. -/
theorem test_setchan : after (exec (.setchan 0x27) { base with curPage := 5 }) (fun t =>
    t.chanMax == 7 && t.initChanMax == 7 && t.lq == [lw 0xB 7] && t.curPage == 5) = true := by decide

theorem test_mute : after (exec (.mute 3 true) base) (fun t =>
    t.muted.get 3 && !t.muted.get 2 && t.trace == [.setMute 3 true]) = true ∧
    refusal (exec (.mute 32 true) base) = some .channelOutOfRange := by decide

theorem test_resync : after (exec .resync base) (fun t =>
    (t.chan 31).volChanged && (t.chan 0).filterChanged == FilterFlags.all true && !(t.chan 0).keyOn) = true := by
  decide

theorem test_rawwrite : after (exec (.rawwrite 1 0x12345678) base) (fun t => t.lq == [lw 1 0x12345678]) = true ∧
    refusal (exec (.rawwrite 16 0) base) = some .addressOutOfRange := by decide

theorem test_rawbatch : after (exec (.rawbatch [(1, 2), (15, 3)]) base) (fun t => t.lq == [lw 1 2, lw 15 3]) = true ∧
    refusal (exec (.rawbatch [(1, 2), (16, 3)]) base) = some .addressOutOfRange := by decide

/-- V51: page 0, register 1. -/
theorem test_snapshot : after (exec .snapshot { base with pool := [(4, 0x12), (5, 0x34), (6, 0x56), (7, 0x78)] })
    (fun t => (t.snapshot.drop 3).take 6 == [0, 0x12, 0x34, 0x56, 0x78, 0] && { t with snapshot := [] } == { base with pool := [(4, 0x12), (5, 0x34), (6, 0x56), (7, 0x78)] }) = true := by
  decide +kernel

theorem test_effectname : after (exec (.effectname 3) base) (fun t => t.effectName == some "pan") = true := by decide

theorem test_setskip : after (exec (.setskip true) base) (fun t => t == { base with skipWrites := true }) = true := by
  decide

theorem test_setlog : after (exec (.setlog true) base) (fun t => t == { base with logEnable := true }) = true := by
  decide

/-! ### Witnesses: states and operands that meet the hypotheses of the obligations -/

/-- DecodeOfEncodeIsIdentity, at the ends of the integer fields. -/
theorem witness_DecodeOfEncodeIsIdentity :
    (Instr.tMacro 31 { silent with vol := ⟨true, -0x80000000, 0x7FFFFFFF⟩ }).wf = true ∧
    (Instr.rawbatch [(15, allBits)]).wf = true ∧ (Instr.nopCmd ⟨0, 0xFF, 0, 0⟩).wf = true := by decide

theorem witness_DecodedIsWellFormed : decode ⟨.cmd, [0x09, 0xFF, 0, 0, 0, 0, 0, 0, 0, 0]⟩ =
    .ok (.nopCmd ⟨9, 0xFF, 0, 0⟩) := by decide

/-- Both branches at the boundary: state 4 and address 0x0F; state 5, address 0x10, a bit above 112. -/
theorem witness_TransactionWords :
    ((0x01040FFFFFFFFFFFFFFFFFFFFFFFFF : Nat) < 2 ^ 120 ∧ 0x01040FFFFFFFFFFFFFFFFFFFFFFFFF / 2 ^ 113 = 0 ∧
      0x01040FFFFFFFFFFFFFFFFFFFFFFFFF / 2 ^ 104 % 256 = 4 ∧
      0x01040FFFFFFFFFFFFFFFFFFFFFFFFF / 2 ^ 96 % 256 = 0x0F) ∧
    0x000500000000000000000000000000 / 2 ^ 104 % 256 = 5 ∧ 0x000010000000000000000000000000 / 2 ^ 96 % 256 = 0x10 ∧
    0x020000000000000000000000000000 / 2 ^ 113 ≠ 0 := by decide

/-- A state with two records at the port, of which the first is an operation. -/
def ported : State := { base with port := [⟨⟨.edge, [0x08]⟩, store⟩, ⟨⟨.hop, [0x0D]⟩, default⟩] }

theorem witness_StepRunsFetched :
    (∃ p rest, ported.port = p :: rest ∧ decode p.record = .ok .edgeIdle) ∧
    ∃ s : State, ∃ p rest, s.port = p :: rest ∧ decode p.record = .error (.unknownHostOperation 0x0D) :=
  ⟨⟨_, _, rfl, rfl⟩, { base with port := [⟨⟨.hop, [0x0D]⟩, store⟩] }, _, _, rfl, rfl⟩

/-- In range at the last channel, address, page and accumulator; out of range at the next. -/
theorem witness_CompletesExactlyInRange :
    operandsInRange (.mute 31 true) base ∧ operandsInRange (.enqr 15 0 0 0) base ∧
    operandsInRange (.pgwrite 127 15 0 0 0) base ∧ operandsInRange (.dispatch ⟨0x63, 0xFF, 0, 0⟩) base ∧
    refusal (exec (.mute 32 true) base) = some .channelOutOfRange ∧
    refusal (exec (.enqr 15 1 0 0) base) = some .accumulatorOutOfRange ∧
    refusal (exec (.pgwrite 128 15 0 0 0) base) = some .pageOutOfRange ∧
    refusal (exec (.pgwrite 127 16 0 0 0) base) = some .addressOutOfRange := by
  unfold operandsInRange; decide

/-- A partial write byte staged, a read behind it, one byte in the pool, the last page, a record presented. -/
def midWrite : State :=
  { base with pq := [⟨.write 0x08, 3, 0, 0x78, 0⟩, ⟨.read 0, 0, 0xE, 0x9F, 0⟩], holdVal := 0x8D, holdValid := true
              pool := [(3, 0xE5)], curPage := 127, logEnable := true, port := [⟨⟨.edge, [0x01]⟩, store⟩] }

theorem midWrite_inv : midWrite.inv := by
  refine ⟨fun _ => ⟨rfl, _, _, _, rfl, rfl, by decide⟩, by decide, by decide, by decide, ⟨?_, ?_⟩, by
    unfold State.cfgInv; decide⟩
  · intro w hw; cases hw
  · intro w hw d hd
    simp only [midWrite, List.mem_cons, List.not_mem_nil, or_false] at hw
    rcases hw with rfl | rfl
    · cases hd
    · cases hd; decide

theorem witness_StepKeepsInv : midWrite.inv ∧ ∃ t, step midWrite = .next t := ⟨midWrite_inv, _, rfl⟩

/-- An edge that commits the staged byte; BWR with LQ empty. -/
theorem witness_BusFollowsProgramOrder :
    midWrite.holdInv ∧ (∃ t, exec .edgeWcommit midWrite = .next t) ∧ Instr.edgeWcommit ≠ .reset ∧
    (∃ t, exec (.bwr 3 1 5 allBits 0) midWrite = .next t) ∧ midWrite.lq = [] :=
  ⟨midWrite_inv.1, ⟨_, rfl⟩, by decide, ⟨_, rfl⟩, rfl⟩

theorem witness_WriteLogMirrorsBus : ∃ t, exec .edge midWrite = .next t := ⟨_, rfl⟩

theorem witness_WhoWritesWhat : ∃ t, exec .edgeWcommit midWrite = .next t ∧
    Memory.read t.pool 3 ≠ Memory.read midWrite.pool 3 := ⟨_, rfl, by decide⟩

theorem witness_StartStateIsReset :
    let s : State := { reversing with cfg := Cfg.default, cycle := 9 }
    s.cfg = Cfg.default ∧ s.acc.length = 1 ∧ s.muted = Bank.fill false ∧ s.skipWrites = false ∧
    s.logEnable = false ∧ s.writeLog = [] ∧ s.initChanMax = 31 := by decide

/-- Both settings, and the first address that is refused. -/
theorem witness_EnqwQueuesOrSkips : base.skipWrites = false ∧ { base with skipWrites := true }.skipWrites = true ∧
    15 < (16 : Word).toNat := by decide

theorem witness_EnqrQueuesAlways : (0 : Word).toNat < base.acc.length ∧ base.acc.length ≤ (1 : Word).toNat ∧
    15 < (16 : Word).toNat := by decide

theorem witness_ExpandFourSteps : { base with lq := [lw 1 2, lw 3 4] }.lq[1]? = some (lw 3 4) := by decide

/-- Pages that differ only outside the mask, pages that differ inside it, the first page refused (V6). -/
theorem witness_PageselSwitches :
    let s : State := { base with curPage := 0x23 }
    { s with skipWrites := true }.skipWrites = true ∧ s.skipWrites = false ∧
    (3 : BitVec 7).setWidth 8 &&& (0x5F : Byte) = s.curPage &&& 0x5F ∧
    (3 : BitVec 7).setWidth 8 &&& (0xFF : Byte) ≠ s.curPage &&& 0xFF ∧ 127 < (128 : Word).toNat := by decide

theorem witness_PageWriteResult :
    let s : State := { base with curPage := 0x23 }
    { s with skipWrites := true }.skipWrites = true ∧ s.skipWrites = false ∧
    (3 : BitVec 7).setWidth 8 &&& (0x5F : Byte) = s.curPage &&& 0x5F ∧
    (3 : BitVec 7).setWidth 8 &&& (0xFF : Byte) ≠ s.curPage &&& 0xFF ∧ 127 < (128 : Word).toNat ∧
    (127 : Word).toNat ≤ 127 ∧ 15 < (16 : Word).toNat := by decide

theorem witness_PageSwitchMinimal : base.skipWrites = false := rfl

theorem witness_LogicalRecordsJoin : (0 : Word).toNat < base.acc.length ∧ base.acc.length ≤ (1 : Word).toNat := by
  decide

theorem witness_PhysicalRecordsJoin :
    base.cycle = 0 ∧ base.pq = [] ∧ byteOf 0x000000FF 3 = 0xFF ∧ byteOf 0x000000FF 0 ≠ 0xFF ∧
    base.holdValid = false ∧ (0 : Word).toNat < base.acc.length ∧ base.acc.length ≤ (1 : Word).toNat := by decide

theorem witness_BusyAndIdle : 0 < { base with cycle := 1 }.cycle ∧ { base with cycle := 1 }.wasRead = false ∧
    base.cycle = 0 ∧ base.pq = [] := by decide

/-- A read of step 3 with another transaction behind it. -/
def reading : State := { base with pq := [⟨.read 0, 3, 0xE, 0x9F, 2⟩, ⟨.write 1, 0, 1, allBits, 0⟩] }

theorem witness_EdgeRdMerges : ∃ w rest, reading.cycle = 0 ∧ reading.pq = w :: rest ∧ w.payload = .read 0 :=
  ⟨_, _, rfl, rfl, rfl⟩

/-- A full-mask write byte of step 3 to the device's page register. -/
def writing : State := { base with pq := [⟨.write 0x23, 3, 0xF, allBits, 2⟩] }

theorem witness_EdgeWfullWrites : ∃ w rest, writing.cycle = 0 ∧ writing.pq = w :: rest ∧
    w.payload = .write 0x23 ∧ byteOf w.mask w.step = 0xFF ∧ Memory.wf writing.pool = true :=
  ⟨_, _, rfl, rfl, rfl, by decide, by decide⟩

theorem witness_EdgeWstageReads : ∃ w rest, partialByte.cycle = 0 ∧ partialByte.pq = w :: rest ∧
    w.payload = .write 0x08 ∧ byteOf w.mask w.step ≠ 0xFF ∧ partialByte.holdValid = false :=
  ⟨_, _, rfl, rfl, rfl, by decide, rfl⟩

theorem witness_EdgeWcommitWrites : ∃ w rest, midWrite.cycle = 0 ∧ midWrite.pq = w :: rest ∧
    w.payload = .write 0x08 ∧ byteOf w.mask w.step ≠ 0xFF ∧ midWrite.holdValid = true ∧
    Memory.wf midWrite.pool = true := ⟨_, _, rfl, rfl, rfl, by decide, rfl, by decide⟩

/-- Each of the six cases after the service phase. -/
theorem witness_EdgeIsServiceThenCase :
    (∃ u, exec .edgeSvc { base with cycle := 1 } = .next u ∧ 0 < u.cycle) ∧
    (∃ u, exec .edgeSvc base = .next u ∧ u.cycle = 0 ∧ u.pq = []) ∧
    (∃ u w rest, exec .edgeSvc reading = .next u ∧ u.cycle = 0 ∧ u.pq = w :: rest ∧ w.payload = .read 0) ∧
    (∃ u w rest, exec .edgeSvc writing = .next u ∧ u.cycle = 0 ∧ u.pq = w :: rest ∧ w.payload = .write 0x23 ∧
      byteOf w.mask w.step = 0xFF) ∧
    (∃ u w rest, exec .edgeSvc partialByte = .next u ∧ u.cycle = 0 ∧ u.pq = w :: rest ∧
      w.payload = .write 0x08 ∧ byteOf w.mask w.step ≠ 0xFF ∧ u.holdValid = false) ∧
    ∃ u w rest, exec .edgeSvc midWrite = .next u ∧ u.cycle = 0 ∧ u.pq = w :: rest ∧ w.payload = .write 0x08 ∧
      byteOf w.mask w.step ≠ 0xFF ∧ u.holdValid = true :=
  ⟨⟨_, rfl, by decide⟩, ⟨_, rfl, rfl, rfl⟩, ⟨_, _, _, rfl, rfl, rfl, rfl⟩, ⟨_, _, _, rfl, rfl, rfl, rfl, by decide⟩,
    ⟨_, _, _, rfl, rfl, rfl, rfl, by decide, rfl⟩, ⟨_, _, _, rfl, rfl, rfl, rfl, by decide, rfl⟩⟩

/-- Each case of the service: nothing read, nothing latched, a vector of bit 7, channel 3 pending and not. -/
theorem witness_ServiceResult :
    base.wasRead = false ∧ { reversing with irqLatched := false }.irqLatched = false ∧
    reversing.wasRead = true ∧ reversing.irqLatched = true ∧
    (({ reversing with acc := [0x80] } : State).acc.getD 0 0 |>.setWidth 8).getLsbD 7 = true ∧
    ((reversing.acc.getD 0 0).setWidth 8).getLsbD 7 = false ∧
    (3 : ChIx).val = (((reversing.acc.getD 0 0).setWidth 8).setWidth 5).toNat ∧
    (reversing.chan 3).isReverseLoop = true ∧ (base.chan 3).isReverseLoop = false ∧
    reversing.cfg.revFlipFn = .specDefault ∧ { reversing with cfg := Cfg.default }.cfg = Cfg.default := by decide

theorem witness_SecondInterruptEmitsNothing : reversing.wasRead = true ∧ reversing.irqLatched = true := by decide

/-- A masked write to the page register, two of its four bytes partial, a delay behind it. -/
theorem witness_LogicalWriteOnBus :
    let s : State := { base with pq := expandLT ⟨.write 0x23, 0xF, 0xFF0000FF, 5⟩, pool := [(0x3F, 1)] }
    s.cycle = 0 ∧ s.holdValid = false ∧ s.wasRead = false ∧
    s.pq = expandLT ⟨.write 0x23, 0xF, 0xFF0000FF, 5⟩ ++ [] ∧ s.cfg.device = .pool ∧ Memory.wf s.pool = true ∧
    partialBytes 0xFF0000FF = 2 ∧ (4095 : Nat) / 4 ≠ s.devPage.toNat * 16 + (0xF : BitVec 4).toNat := by decide

theorem witness_LogicalReadOnBus :
    let s : State := { base with pq := expandLT ⟨.read 0, 0xE, 0x9F, 0⟩ }
    s.cycle = 0 ∧ s.wasRead = false ∧ 0 < s.acc.length ∧ s.pq = expandLT ⟨.read 0, 0xE, 0x9F, 0⟩ ++ [] ∧
    s.cfg.device = .pool := by decide

theorem witness_UnselectedDoesNothing : base.busCase ≠ .rd ∧ (base.chan 0).keyOn = false ∧
    (base.chan 0).pcm.index = none ∧ (base.chan 0).keyOff = false ∧ (base.chan 0).active = false := by decide

theorem witness_MacroResult : base.cfg.envMacroFn = .specDefault ∧ silent.ex3.had = false ∧ silent.ex4.had = false := by
  decide

/-- Channel 0 with every flag as `changed` has it, and the same with a key-on pending. -/
def pending (on : Bool) : State := withCh 0 { changed with keyOn := on, volChanged := true } base

theorem witness_VolResult : (base.chan 0).volChanged = false ∧ ((pending true).chan 0).volChanged = true ∧
    ((pending true).chan 0).keyOn = true ∧ ((pending false).chan 0).volChanged = true ∧
    ((pending false).chan 0).keyOn = false := by decide

theorem witness_FiltResult : (base.chan 0).filterChanged = ⟨false, false, false⟩ ∧
    ((pending true).chan 0).filterChanged ≠ ⟨false, false, false⟩ ∧ ((pending true).chan 0).keyOn = true ∧
    ((pending false).chan 0).filterChanged ≠ ⟨false, false, false⟩ ∧ ((pending false).chan 0).keyOn = false := by
  decide

theorem witness_EnvResult : (base.chan 0).envChanged = ⟨false, false, false, false, false⟩ ∧
    ((pending true).chan 0).envChanged ≠ ⟨false, false, false, false, false⟩ ∧
    ((pending true).chan 0).keyOn = true ∧
    ((pending false).chan 0).envChanged ≠ ⟨false, false, false, false, false⟩ ∧
    ((pending false).chan 0).keyOn = false := by decide

/-- No flag; a key-on with a sample and a key-off together. -/
theorem witness_FreqResult :
    ((base.chan 0).freqChanged = false ∧ (base.chan 0).keyOn = false ∧ (base.chan 0).keyOff = false) ∧
    (let c := { keyed .oneshot false with keyOff := true }
     c.keyOn = true ∧ c.keyOff = true ∧ c.pcm.index ≠ none) ∧
    base.cfg.freqCalcFn = .specDefault := by decide

theorem witness_KeyonWrites : (keyed .backward true).keyOn = true ∧ (keyed .backward true).pcm.index ≠ none := by
  decide

/-- The last channel, its own page selected. -/
theorem witness_KeyOnQueuesTwentyThree :
    let s := withCh 31 (keyed .pingpong true) { base with cfg := Cfg.default, curPage := 31 }
    (s.chan 31).keyOn = true ∧ (s.chan 31).pcm.index ≠ none ∧ s.cfg = Cfg.default ∧ s.skipWrites = false ∧
    s.curPage = BitVec.ofNat 8 31 := by decide

theorem witness_KeyoffAndFreqw :
    (let s := withCh 5 { Chan.init with keyOff := true } base
     (s.chan 5).keyOff = true) ∧
    let s := withCh 5 { Chan.init with active := true } base
    (s.chan 5).keyOn = false ∧ (s.chan 5).keyOff = false ∧ (s.chan 5).active = true := by decide

/-- The last channel visited and the first that is not. -/
theorem witness_PassClearsFlags : (7 : ChIx).val ≤ (7 : BitVec 5).toNat ∧ (7 : BitVec 5).toNat < (8 : ChIx).val := by
  decide

/-- An input scripted, and none. -/
theorem witness_TickRunsSteps :
    { base with macroIn := [⟨silent, 1⟩, ⟨silent, 2⟩] }.macroIn = ⟨silent, 1⟩ :: [⟨silent, 2⟩] ∧
    State.reset.macroIn = [] := by decide

/-- A sample resolved directly, one resolved through the note map, and one that is not valid. -/
theorem witness_NoteOnResult :
    ((insStore store 0).useNoteMap = false ∧ (insStore store 0).initSample = some 0) ∧
    ((insStore store 1).useNoteMap = true ∧ (insStore store 1).noteMap.lookup 48 = some (0, 4000)) ∧
    (sampleStore store 0).map (·.length) = some 100 ∧
    ((insStore store 2).useNoteMap = false ∧ (insStore store 2).initSample = some 7 ∧
      sampleStore store 7 = none) := by decide

/-- Up and down, each reaching its target exactly and falling one short; the target already reached, with a speed of
4 and of 0; three calls of V40. -/
theorem witness_PortaResult :
    noteFreq tables 60 = 1010 ∧ ((1006 : Int) < 1010 ∧ (1010 : Int) ≤ 1006 + (4 : Word).toInt) ∧
    ((1005 : Int) < 1010 ∧ 1005 + (4 : Word).toInt < 1010) ∧
    ((1010 : Int) ≤ 1014 ∧ 1014 - (4 : Word).toInt ≤ 1010) ∧
    ((1010 : Int) ≤ 1015 ∧ (1010 : Int) < 1015 - (4 : Word).toInt) ∧
    ((1010 : Int) ≤ 1010 ∧ 1010 - (4 : Word).toInt ≤ 1010 ∧ 1010 - (0 : Word).toInt ≤ 1010) ∧
    (0 < (4 : Word).toInt ∧ (1010 : Int) - 1000 ≤ 3 * (4 : Word).toInt) := by decide

/-- The last sample inside, the first outside, a negative position. -/
theorem witness_SamplePosResult :
    let p := (keyed .forward false).pcm
    (p.index ≠ none ∧ 0 ≤ (99 : Word).toInt ∧ (99 : Word).toInt < p.length) ∧
    ¬ (100 : Word).toInt < p.length ∧ ¬ 0 ≤ (0xFFFFFFFF : Word).toInt := by decide

theorem witness_CommandsTouchOnlyTheirChannel :
    (∃ t, exec (.dispatch ⟨0x04, 31, 9, 0⟩) base = .next t) ∧ (∃ t, exec (.dispatch ⟨0x09, 0xFF, 0, 0⟩) base = .next t) ∧
    (0x09 : Byte) ∉ knownKinds := ⟨⟨_, rfl⟩, ⟨_, rfl⟩, by decide⟩

theorem witness_RepeatSetsNoFlag :
    (0x1B : Byte) ∈ ([0x04, 0x05, 0x06, 0x10, 0x11, 0x12, 0x18, 0x19, 0x1A, 0x1B, 0x1C] : List Byte) ∧
    ∃ t, exec (.dispatch ⟨0x1B, 31, 5, 1⟩) base = .next t := ⟨by decide, _, rfl⟩

/-- A known kind at the last channel and at the first that does not exist; an unknown kind. -/
theorem witness_DispatchIsItsCommand : (0x01 : Byte) ∈ knownKinds ∧ 31 < (32 : Byte).toNat ∧ (31 : Byte).toNat ≤ 31 ∧
    (0x00 : Byte) ∉ knownKinds := by decide

theorem witness_GenerateResult :
    { base with tickIn := [⟨[.irq, .risingEdge], 40000, -40000⟩] }.tickIn = ⟨[.irq, .risingEdge], 40000, -40000⟩ :: [] ∧
    State.reset.tickIn = [] ∧
    (5 : Word).toNat + (1 : Word).toNat + (2 : Word).toNat < 2 ^ 32 := by decide

theorem witness_SetchanMuteResync : 31 < (32 : Word).toNat := by decide

theorem witness_RawWrites : 15 < (16 : Word).toNat ∧
    ∃ p ∈ ([(15, 0), (16, 0)] : List (Word × Word)), 15 < p.1.toNat := by decide

theorem witness_SnapshotLayout : base.cfg.device = .pool ∧ (127 : Nat) < 128 ∧ (15 : Nat) < 16 ∧ (8191 : Nat) < 8192 := by
  decide

theorem witness_RawWriteRoundTrip :
    let s : State := { base with tickIn := [⟨List.replicate 4 .risingEdge, 0, 0⟩], pool := [(8191, 1)] }
    s.cfg.device = .pool ∧ Memory.wf s.pool = true ∧ (s.lq = [] ∧ s.pq = [] ∧ s.cycle = 0 ∧ s.holdValid = false) ∧
    s.skipWrites = false ∧ s.wasRead = false ∧
    s.tickIn = ⟨List.replicate 4 .risingEdge, 0, 0⟩ :: [] ∧ (4 : Nat) ≤ 4 ∧
    (8191 : Nat) / 4 ≠ s.devPage.toNat * 16 + (1 : BitVec 4).toNat := by decide

end Sys2Proof.Tests
end

section
/-! PROOFS. The machine's step: what the operation port yields, and what one step makes of it (00_scope.md R3, R9,
R13). -/

namespace Sys2Proof.Machine

/-! ### The operation port -/

theorem State.fetch_of_port_nil {s : State} (hport : s.port = []) : s.fetch = none := by
  simp [State.fetch, hport]

theorem State.fetch_of_port_cons {s : State} {p : Presented} {rest : List Presented} (hport : s.port = p :: rest) :
    s.fetch = some (decode p.record, { s with port := rest, stores := p.stores }) := by
  simp [State.fetch, hport]

/-! ### One step, by what is fetched -/

theorem step_of_port_nil {s : State} (hport : s.port = []) : step s = .next s := by
  simp [step, State.fetch_of_port_nil hport]

theorem step_of_decode_ok {s : State} {p : Presented} {rest : List Presented} {i : Instr}
    (hport : s.port = p :: rest) (hdec : decode p.record = .ok i) :
    step s = exec i { s with port := rest, stores := p.stores } := by
  simp [step, State.fetch_of_port_cons hport, hdec]

theorem step_of_decode_error {s : State} {p : Presented} {rest : List Presented} {why : Reject}
    (hport : s.port = p :: rest) (hdec : decode p.record = .error why) :
    step s = .refused (.noOperation why) := by
  simp [step, State.fetch_of_port_cons hport, hdec]

/-- Settles O6, case by case of what the port holds and what its front record decodes to. -/
theorem stepRunsFetched : Obligations.StepRunsFetched := by
  intro s p rest hport
  refine ⟨fun i hdec => ?operation, fun why hdec => ?noOperation, ?emptyPort⟩
  case operation => exact step_of_decode_ok hport hdec
  case noOperation => exact step_of_decode_error hport hdec
  case emptyPort => exact step_of_port_nil rfl

end Sys2Proof.Machine
end

section
/-! PROOFS. A command that sets a flag only on change, made a second time (10_state.md R38). -/

namespace Sys2Proof

/-! ### SetIfChanged with the value already held -/

@[simp] theorem dirtyIf_self {α : Type} [DecidableEq α] (flag : Bool) (v : α) : dirtyIf flag v v = flag := if_pos rfl

theorem Chan.setPitch_of_eq {c : Chan} {v : Int} (h : c.pitch = v) : c.setPitch v = c := by
  subst h; simp [Chan.setPitch]

theorem Chan.setFilterMode_of_eq {c : Chan} {v : BitVec 2} (h : c.filter.mode = v) : c.setFilterMode v = c := by
  subst h; simp [Chan.setFilterMode]

theorem Chan.setK1_of_eq {c : Chan} {v : Half} (h : c.filter.k1 = v) : c.setK1 v = c := by
  subst h; simp [Chan.setK1]

theorem Chan.setK2_of_eq {c : Chan} {v : Half} (h : c.filter.k2 = v) : c.setK2 v = c := by
  subst h; simp [Chan.setK2]

theorem Chan.setEcount_of_eq {c : Chan} {v : Half} (h : c.env.ecount = v) : c.setEcount v = c := by
  subst h; simp [Chan.setEcount]

theorem Chan.setLVRamp_of_eq {c : Chan} {v : Byte} (h : c.env.lVRamp = v) : c.setLVRamp v = c := by
  subst h; simp [Chan.setLVRamp]

theorem Chan.setRVRamp_of_eq {c : Chan} {v : Byte} (h : c.env.rVRamp = v) : c.setRVRamp v = c := by
  subst h; simp [Chan.setRVRamp]

theorem Chan.setK1Ramp_of_eq {c : Chan} {v : Byte} (h : c.env.k1Ramp = v) : c.setK1Ramp v = c := by
  subst h; simp [Chan.setK1Ramp]

theorem Chan.setK2Ramp_of_eq {c : Chan} {v : Byte} (h : c.env.k2Ramp = v) : c.setK2Ramp v = c := by
  subst h; simp [Chan.setK2Ramp]

theorem Chan.setK1Slow_of_eq {c : Chan} {b : Bool} (h : c.env.k1Slow = b) : c.setK1Slow b = c := by
  subst h; simp [Chan.setK1Slow]

theorem Chan.setK2Slow_of_eq {c : Chan} {b : Bool} (h : c.env.k2Slow = b) : c.setK2Slow b = c := by
  subst h; simp [Chan.setK2Slow]

theorem Chan.setK1Ramp_setK1Slow_of_eq {c : Chan} {r : Byte} {b : Bool} (hr : c.env.k1Ramp = r)
    (hb : c.env.k1Slow = b) : (c.setK1Ramp r).setK1Slow b = c := by
  rw [Chan.setK1Ramp_of_eq hr, Chan.setK1Slow_of_eq hb]

theorem Chan.setK2Ramp_setK2Slow_of_eq {c : Chan} {r : Byte} {b : Bool} (hr : c.env.k2Ramp = r)
    (hb : c.env.k2Slow = b) : (c.setK2Ramp r).setK2Slow b = c := by
  rw [Chan.setK2Ramp_of_eq hr, Chan.setK2Slow_of_eq hb]

namespace Machine

theorem volumeChan_of_eq {c : Chan} {value : Int} (h : c.vol = clampVol value) : volumeChan value c = c := by
  simp [volumeChan, h]

theorem panningChan_of_eq {c : Chan} {value value2 : Int} (hl : c.lVol = clampVol value)
    (hr : c.rVol = clampVol value2) : panningChan value value2 c = c := by
  simp [panningChan, hl, hr]

/-- VOLUME leaves the channel with the volume it names, whether or not that was a change. -/
theorem volumeChan_vol (value : Int) (c : Chan) : (volumeChan value c).vol = clampVol value := by
  by_cases h : c.vol = clampVol value <;> simp [volumeChan, h]

theorem panningChan_lVol (value value2 : Int) (c : Chan) : (panningChan value value2 c).lVol = clampVol value := by
  by_cases h : c.lVol = clampVol value ∧ c.rVol = clampVol value2
  · rw [panningChan_of_eq h.1 h.2, h.1]
  · simp [panningChan, not_and_or.1 h]

theorem panningChan_rVol (value value2 : Int) (c : Chan) : (panningChan value value2 c).rVol = clampVol value2 := by
  by_cases h : c.lVol = clampVol value ∧ c.rVol = clampVol value2
  · rw [panningChan_of_eq h.1 h.2, h.2]
  · simp [panningChan, not_and_or.1 h]

/-! ### Commands on one channel -/

theorem withChannel_of_val {ch : Byte} {i : ChIx} (h : i.val = ch.toNat) (k : ChIx → Result State) :
    withChannel ch k = k i := by
  have hlt : ch.toNat < 32 := h ▸ i.isLt
  rw [withChannel, dif_pos hlt]
  exact congrArg k (Fin.ext h.symm)

/-- A command that answers a next state has a legal channel, changes that channel alone and answers 1. -/
theorem onChannel_next {ch : Byte} {s t : State} {f : Chan → Chan} (h : onChannel ch s f = .next t) :
    ∃ i : ChIx, i.val = ch.toNat ∧ t = (s.modChan i f).setCode 1 := by
  obtain ⟨i, hi, hnext⟩ := withChannel_next h
  exact ⟨i, hi, (Host.Outcome.next.inj hnext).symm⟩

/-- Made again on the channel it left, the dirty flags meanwhile cleared, the change changes nothing. -/
def Repeatable (f : Chan → Chan) : Prop := ∀ c, f (Chan.clearDirty (f c)) = Chan.clearDirty (f c)

/-- The kinds of the commands that set a flag only on change. -/
def flagOnChangeKinds : List Byte := [0x04, 0x05, 0x06, 0x10, 0x11, 0x12, 0x18, 0x19, 0x1A, 0x1B, 0x1C]

/-- Each such command is a repeatable change of its channel: afterwards the channel holds the value that the command
names. -/
theorem dispatch_repeatable {cmd : Cmd} (hkind : cmd.kind ∈ flagOnChangeKinds) :
    ∃ f, Repeatable f ∧ ∀ s, exec (.dispatch cmd) s = onChannel cmd.channel s f := by
  obtain ⟨kind, ch, value, value2⟩ := cmd
  simp only [flagOnChangeKinds, List.mem_cons, List.not_mem_nil, or_false] at hkind
  obtain rfl | rfl | rfl | rfl | rfl | rfl | rfl | rfl | rfl | rfl | rfl := hkind
  · exact ⟨_, fun c => volumeChan_of_eq (volumeChan_vol value.toInt c), fun _ => rfl⟩
  · exact ⟨_, fun c => panningChan_of_eq (panningChan_lVol value.toInt value2.toInt c)
      (panningChan_rVol value.toInt value2.toInt c), fun _ => rfl⟩
  · exact ⟨_, fun c => Chan.setPitch_of_eq (v := value.toInt) rfl, fun _ => rfl⟩
  · exact ⟨_, fun c => Chan.setFilterMode_of_eq (v := value.setWidth 2) rfl, fun _ => rfl⟩
  · exact ⟨_, fun c => Chan.setK1_of_eq (v := value.setWidth 16) rfl, fun _ => rfl⟩
  · exact ⟨_, fun c => Chan.setK2_of_eq (v := value.setWidth 16) rfl, fun _ => rfl⟩
  · exact ⟨_, fun c => Chan.setEcount_of_eq (v := value.setWidth 16) rfl, fun _ => rfl⟩
  · exact ⟨_, fun c => Chan.setLVRamp_of_eq (v := value.setWidth 8) rfl, fun _ => rfl⟩
  · exact ⟨_, fun c => Chan.setRVRamp_of_eq (v := value.setWidth 8) rfl, fun _ => rfl⟩
  · exact ⟨_, fun c => Chan.setK1Ramp_setK1Slow_of_eq (r := value.setWidth 8) (b := boolOfWord value2) rfl rfl,
      fun _ => rfl⟩
  · exact ⟨_, fun c => Chan.setK2Ramp_setK2Slow_of_eq (r := value.setWidth 8) (b := boolOfWord value2) rfl rfl,
      fun _ => rfl⟩

/-- A change that leaves the channel as it stands, by a command whose result code already stands. -/
theorem setCode_modChan_of_fixed {u : State} {i : ChIx} {f : Chan → Chan} {n : Nat} (hcode : u.code = some n)
    (hfixed : f (u.chan i) = u.chan i) : (u.modChan i f).setCode n = u := by
  rw [State.modChan, hfixed, setChan_chan, State.setCode, ← hcode]

/-- Settles O53: each of these commands is a repeatable change of one channel. -/
theorem repeatSetsNoFlag : Obligations.RepeatSetsNoFlag := by
  intro cmd s t hkind h u
  obtain ⟨f, hf, hexec⟩ := dispatch_repeatable hkind
  obtain ⟨i, hi, rfl⟩ := onChannel_next ((hexec s).symm.trans h)
  have hchan : u.chan i = Chan.clearDirty (f (s.chan i)) := by
    simp [u, State.chan, State.modChan]
  have hfixed : f (u.chan i) = u.chan i := by
    rw [hchan, hf]
  have hsame : (u.modChan i f).setCode 1 = u := setCode_modChan_of_fixed rfl hfixed
  rw [hexec, onChannel, withChannel_of_val hi, hsame]

end Machine

end Sys2Proof
end

section
/-! PROOFS. Which operation may write the host's settings, the accumulators, the results and the register pool
(10_state.md R29 to R33, 41_edge_sequencer.md R150). -/

namespace Sys2Proof.Machine

/-! ### What is watched -/

/-- The part of the state that only named operations may write. -/
structure Watched where
  cfg : Cfg
  port : List Presented
  stores : Stores
  skipWrites : Bool
  logEnable : Bool
  initChanMax : BitVec 5
  chanMax : BitVec 5
  muted : Bank Bool
  snapshot : List Byte
  effectName : Option String
  samples : List StereoSample
  acc : List Word
  pool : Memory

/-- The watched part of a state. -/
def State.watched (s : State) : Watched where
  cfg := s.cfg
  port := s.port
  stores := s.stores
  skipWrites := s.skipWrites
  logEnable := s.logEnable
  initChanMax := s.initChanMax
  chanMax := s.chanMax
  muted := s.muted
  snapshot := s.snapshot
  effectName := s.effectName
  samples := s.samples
  acc := s.acc
  pool := s.pool

/-! ### Queues, channels, the service phase: nothing watched is written -/

@[simp] theorem watched_setChan (s : State) (i : ChIx) (c : Chan) : (s.setChan i c).watched = s.watched := rfl

@[simp] theorem watched_modChan (s : State) (i : ChIx) (f : Chan → Chan) : (s.modChan i f).watched = s.watched := rfl

@[simp] theorem watched_setCode (s : State) (n : Nat) : (s.setCode n).watched = s.watched := rfl

@[simp] theorem watched_countEdge (s : State) : s.countEdge.watched = s.watched := rfl

@[simp] theorem watched_expand (s : State) : s.expand.watched = s.watched := rfl

@[simp] theorem watched_takeTick (s : State) : s.takeTick.watched = s.watched := by
  rw [takeTick_eq]; rfl

@[simp] theorem watched_takeMacro (s : State) (i : ChIx) (b : Bool) : (s.takeMacro i b).watched = s.watched := by
  rw [takeMacro_eq]; rfl

theorem QueuesOnly.watched_eq {s t : State} (h : QueuesOnly s t) : t.watched = s.watched := by
  obtain ⟨p, ws, rfl, _, _⟩ := h
  rfl

@[simp] theorem watched_enqw (s : State) (a : BitVec 4) (v m d : Word) : (s.enqw a v m d).watched = s.watched :=
  (enqw_queuesOnly s a v m d).watched_eq

@[simp] theorem watched_writeA (s : State) (i : ChIx) (r : BitVec 4) (v : Word) :
    (s.writeA i r v).watched = s.watched :=
  (writeA_queuesOnly s i r v).watched_eq

@[simp] theorem watched_writeB (s : State) (i : ChIx) (r : BitVec 4) (v : Word) :
    (s.writeB i r v).watched = s.watched :=
  (writeB_queuesOnly s i r v).watched_eq

@[simp] theorem watched_writeCr (s : State) (i : ChIx) (v m : Word) : (s.writeCr i v m).watched = s.watched :=
  (writeCr_queuesOnly s i v m).watched_eq

theorem rawWrites_watched (s : State) (ps : List (Word × Word)) : (s.rawWrites ps).watched = s.watched :=
  List.foldlRecOn (motive := fun t : State => t.watched = s.watched) ps _ rfl
    fun t ht _ _ => (watched_enqw t ..).trans ht

@[simp] theorem watched_irqService (s : State) : s.irqService.watched = s.watched := by
  obtain ⟨a, b, h | ⟨c, u, hu, h⟩⟩ := irqService_cases s
  · rw [h]; rfl
  · rw [h, watched_modChan, hu.watched_eq]; rfl

/-! ### The translator: nothing watched is written -/

@[simp] theorem watched_tMacro (s : State) (i : ChIx) (m : MacroIn) : (s.tMacro i m).watched = s.watched := rfl

@[simp] theorem watched_tVol (s : State) (i : ChIx) : (s.tVol i).watched = s.watched := by
  simp [State.tVol, apply_ite State.watched]

@[simp] theorem watched_tFilt (s : State) (i : ChIx) (m : MacroIn) : (s.tFilt i m).watched = s.watched := by
  simp [State.tFilt, apply_ite State.watched]

@[simp] theorem watched_tEnv (s : State) (i : ChIx) : (s.tEnv i).watched = s.watched := by
  simp [State.tEnv, apply_ite State.watched]

@[simp] theorem watched_tKeyon (s : State) (i : ChIx) (m : MacroIn) : (s.tKeyon i m).watched = s.watched := by
  have hwrites := (pageWrites_queuesOnly _ (keyOnWrites_pages s.cfg s.chanMax i m (s.chan i)) s).watched_eq
  simp [State.tKeyon, apply_ite State.watched, hwrites]

@[simp] theorem watched_tKeyoff (s : State) (i : ChIx) : (s.tKeyoff i).watched = s.watched := by
  simp [State.tKeyoff, apply_ite State.watched]

@[simp] theorem watched_tFreqw (s : State) (i : ChIx) : (s.tFreqw i).watched = s.watched := by
  simp [State.tFreqw, apply_ite State.watched]

@[simp] theorem watched_tFreq (s : State) (i : ChIx) (m : MacroIn) : (s.tFreq i m).watched = s.watched := by
  simp [State.tFreq, apply_ite State.watched]

theorem translateChannel_watched (s : State) (b : Bool) (i : ChIx) : (s.translateChannel b i).watched = s.watched := by
  simp [State.translateChannel]

theorem translatorPass_watched (s : State) (b : Bool) : (s.translatorPass b).watched = s.watched :=
  List.foldlRecOn (motive := fun t : State => t.watched = s.watched) (visitedChannels s.chanMax) _ rfl
    fun t ht i _ => (translateChannel_watched t b i).trans ht

/-! ### Commands: nothing watched is written -/

theorem onChannel_watched {ch : Byte} {s t : State} {f : Chan → Chan} (h : onChannel ch s f = .next t) :
    t.watched = s.watched := by
  obtain ⟨i, _, rfl⟩ := onChannel_next h
  rfl

theorem execPorta_watched {ch : Byte} {value value2 : Word} {s t : State}
    (h : execPorta ch value value2 s = .next t) : t.watched = s.watched := by
  obtain ⟨i, _, hnext⟩ := withChannel_next h
  cases hnext
  rfl

theorem execSamplePos_watched {ch : Byte} {value : Word} {s t : State} (h : execSamplePos ch value s = .next t) :
    t.watched = s.watched := by
  obtain ⟨i, _, hnext⟩ := withChannel_next h
  cases hnext
  simp [apply_ite State.watched]

theorem execNopCmd_watched {cmd : Cmd} {s t : State} (h : execNopCmd cmd s = .next t) : t.watched = s.watched := by
  cases h
  rfl

theorem execDispatch_watched {cmd : Cmd} {s t : State} (h : execDispatch cmd s = .next t) :
    t.watched = s.watched := by
  unfold execDispatch at h
  split at h
  case h_7 => exact execPorta_watched h
  case h_8 => exact execSamplePos_watched h
  case h_17 => exact execNopCmd_watched h
  all_goals exact onChannel_watched h

/-! ### The bus phase: a read writes an accumulator, a committed byte the pool -/

/-- Beside the accumulators, whose number stays, and the pool nothing watched is written. -/
def BusChanges (k k' : Watched) : Prop :=
  ∃ (acc : List Word) (pool : Memory), acc.length = k.acc.length ∧ k' = { k with acc := acc, pool := pool }

theorem BusChanges.refl (k : Watched) : BusChanges k k := ⟨k.acc, k.pool, rfl, rfl⟩

theorem BusChanges.trans {k₁ k₂ k₃ : Watched} (h : BusChanges k₁ k₂) (h' : BusChanges k₂ k₃) : BusChanges k₁ k₃ := by
  obtain ⟨acc, pool, hlen, rfl⟩ := h
  obtain ⟨acc', pool', hlen', rfl⟩ := h'
  exact ⟨acc', pool', hlen'.trans hlen, rfl⟩

theorem commit_watched (s : State) (a : BitVec 6) (v : Byte) :
    (s.commit a v).watched = { s.watched with pool := (s.commit a v).pool } := by
  unfold State.commit
  cases s.logEnable <;> rfl

theorem edgeWfull_watched (s : State) : s.edgeWfull.watched = { s.watched with pool := s.edgeWfull.pool } := by
  unfold State.edgeWfull
  split
  · split
    · exact commit_watched s _ _
    · rfl
  · rfl

theorem edgeWcommit_watched (s : State) : s.edgeWcommit.watched = { s.watched with pool := s.edgeWcommit.pool } := by
  unfold State.edgeWcommit
  split
  · exact commit_watched s _ _
  · rfl

theorem edgeWstage_watched (s : State) : s.edgeWstage.watched = s.watched := by
  unfold State.edgeWstage
  split
  · split <;> rfl
  · rfl

theorem edgeRd_watched (s : State) : s.edgeRd.watched = { s.watched with acc := s.edgeRd.acc } := by
  unfold State.edgeRd
  split
  · split <;> rfl
  · rfl

theorem edgeRd_acc_length (s : State) : s.edgeRd.acc.length = s.acc.length := by
  unfold State.edgeRd
  split
  · split
    · exact List.length_set
    · rfl
  · rfl

theorem runCase_busChanges (s : State) (c : BusCase) : BusChanges s.watched (s.runCase c).watched := by
  cases c with
  | busy => exact .refl _
  | idle => exact .refl _
  | rd => exact ⟨s.edgeRd.acc, s.pool, edgeRd_acc_length s, edgeRd_watched s⟩
  | wfull => exact ⟨s.acc, s.edgeWfull.pool, rfl, edgeWfull_watched s⟩
  | wstage => exact edgeWstage_watched s ▸ .refl _
  | wcommit => exact ⟨s.acc, s.edgeWcommit.pool, rfl, edgeWcommit_watched s⟩

theorem busPhase_busChanges (s : State) : BusChanges s.watched s.busPhase.watched :=
  runCase_busChanges s s.busCase

theorem edgeStep_busChanges (s : State) : BusChanges s.watched s.edgeStep.watched :=
  watched_irqService s ▸ busPhase_busChanges s.irqService

/-- A case presented alone is either not selected or carried out. -/
theorem selectedCase_eq (s : State) (c : BusCase) :
    s.selectedCase c = s ∨ s.selectedCase c = (s.runCase c).countEdge := by
  unfold State.selectedCase
  split
  · next hcase => exact .inr (hcase ▸ rfl)
  · exact .inl rfl

/-! ### GENERATE -/

theorem devEvent_busChanges (s : State) (e : DevEvent) : BusChanges s.watched (s.devEvent e).watched := by
  cases e with
  | risingEdge => exact edgeStep_busChanges s
  | irq => exact .refl _

theorem devEvents_busChanges (s : State) (es : List DevEvent) :
    BusChanges s.watched (es.foldl State.devEvent s).watched :=
  List.foldlRecOn (motive := fun t : State => BusChanges s.watched t.watched) es _ (.refl _)
    fun t ht e _ => ht.trans (devEvent_busChanges t e)

/-- Beside the accumulators, whose number stays, the pool and the stereo pairs nothing watched is written. -/
def GenerateChanges (k k' : Watched) : Prop :=
  ∃ samples : List StereoSample, BusChanges { k with samples := samples } k'

theorem GenerateChanges.trans {k₁ k₂ k₃ : Watched} (h : GenerateChanges k₁ k₂) (h' : GenerateChanges k₂ k₃) :
    GenerateChanges k₁ k₃ := by
  obtain ⟨samples, acc, pool, hlen, rfl⟩ := h
  obtain ⟨samples', acc', pool', hlen', rfl⟩ := h'
  exact ⟨samples', acc', pool', hlen'.trans hlen, rfl⟩

theorem sample_generateChanges (s : State) (k : Nat) : GenerateChanges s.watched (s.sample k).watched := by
  have hevents := devEvents_busChanges s.expand.takeTick s.expand.nextTick.events
  rw [watched_takeTick, watched_expand] at hevents
  obtain ⟨acc, pool, hlen, hk⟩ := hevents
  exact ⟨(s.sample k).samples, acc, pool, hlen,
    congrArg (fun w : Watched => { w with samples := (s.sample k).samples }) hk⟩

theorem generateFrom_generateChanges (s : State) (k n : Nat) :
    GenerateChanges s.watched (s.generateFrom k n).watched := by
  induction n generalizing s k with
  | zero => exact ⟨s.samples, .refl _⟩
  | succ n ih => exact (sample_generateChanges s k).trans (ih (s.sample k) (k + 1))

/-! ### Every operation -/

/-- What each operation may make of the watched part: the table of writers. -/
inductive MayWrite (k : Watched) : Instr → Watched → Prop
  | nothing (i : Instr) : MayWrite k i k
  | reset (acc : List Word) : acc.length = k.acc.length →
      MayWrite k .reset { k with acc := acc, chanMax := k.initChanMax }
  | setchan (n : Word) :
      MayWrite k (.setchan n) { k with initChanMax := n.setWidth 5, chanMax := n.setWidth 5 }
  | mute (index : Word) (b : Bool) (muted : Bank Bool) : MayWrite k (.mute index b) { k with muted := muted }
  | snapshot (bytes : List Byte) : MayWrite k .snapshot { k with snapshot := bytes }
  | effectname (code : Word) (name : Option String) : MayWrite k (.effectname code) { k with effectName := name }
  | setskip (b : Bool) : MayWrite k (.setskip b) { k with skipWrites := b }
  | setlog (b : Bool) : MayWrite k (.setlog b) { k with logEnable := b }
  | generate (offset length : Word) (samples : List StereoSample) (acc : List Word) (pool : Memory) :
      acc.length = k.acc.length →
      MayWrite k (.generate offset length) { k with samples := samples, acc := acc, pool := pool }
  | edge (acc : List Word) (pool : Memory) : acc.length = k.acc.length →
      MayWrite k .edge { k with acc := acc, pool := pool }
  | bwr (step : BitVec 2) (address : BitVec 4) (value mask delay : Word) (acc : List Word) (pool : Memory) :
      acc.length = k.acc.length →
      MayWrite k (.bwr step address value mask delay) { k with acc := acc, pool := pool }
  | brd (step : BitVec 2) (address : BitVec 4) (dest mask delay : Word) (acc : List Word) (pool : Memory) :
      acc.length = k.acc.length →
      MayWrite k (.brd step address dest mask delay) { k with acc := acc, pool := pool }
  | edgeRd (acc : List Word) : acc.length = k.acc.length → MayWrite k .edgeRd { k with acc := acc }
  | edgeWfull (pool : Memory) : MayWrite k .edgeWfull { k with pool := pool }
  | edgeWcommit (pool : Memory) : MayWrite k .edgeWcommit { k with pool := pool }

theorem MayWrite.of_eq {k k' : Watched} (i : Instr) (h : k' = k) : MayWrite k i k' := h ▸ .nothing i

theorem setChannels_mayWrite (s : State) (n : Word) :
    MayWrite s.watched (.setchan n) (s.setChannels (n.setWidth 5)).watched := by
  have hqueue := (pgWriteM_queuesOnly { s with initChanMax := n.setWidth 5, chanMax := n.setWidth 5 }
    (p := 0) (by decide) s.cfg.pmGlobal s.cfg.regActv ((n.setWidth 5).setWidth 32) allBits 0).watched_eq
  exact hqueue ▸ .setchan n

theorem resetOp_mayWrite (s : State) : MayWrite s.watched .reset s.resetOp.watched := by
  have hqueue (u : State) (r r' : BitVec 4) (pm : Byte) (v : Word) :
      ((u.enqw r 0 allBits 0).pgWriteM 0 pm r' v allBits 0).watched = u.watched :=
    ((enqw_queuesOnly u ..).trans (pgWriteM_queuesOnly _ (by decide) ..)).watched_eq
  rw [State.resetOp, hqueue]
  exact .reset ((List.replicate s.acc.length 0).set s.cfg.accIrqv 0x00000080) (by simp [State.watched])

theorem selectedCase_mayWrite {s : State} {c : BusCase} (h : MayWrite s.watched c.instr (s.runCase c).watched) :
    MayWrite s.watched c.instr (s.selectedCase c).watched := by
  obtain hidle | hrun := selectedCase_eq s c
  · rw [hidle]; exact .nothing _
  · rw [hrun]; exact h

/-- Every operation that answers a next state writes of the watched part only what it may. -/
theorem exec_mayWrite {i : Instr} {s t : State} (h : exec i s = .next t) : MayWrite s.watched i t.watched := by
  cases i
  -- host operations
  case reset => cases h; exact resetOp_mayWrite s
  case generate offset length =>
    cases h
    obtain ⟨samples, acc, pool, hlen, hk⟩ :=
      generateFrom_generateChanges { s with samples := [] } offset.toNat length.toNat
    exact hk ▸ .generate offset length samples acc pool hlen
  case tick b => cases h; exact .of_eq _ (translatorPass_watched s b)
  case dispatch => exact .of_eq _ (execDispatch_watched h)
  case setchan n => cases h; exact setChannels_mayWrite s n
  case mute index b =>
    simp only [exec, execMute] at h
    split at h
    · cases h; exact .mute _ _ _
    · cases h
  case resync => cases h; exact .nothing _
  case rawwrite =>
    simp only [exec, execRawwrite] at h
    obtain ⟨_, hnext⟩ := withAddress_next h
    cases hnext; exact .of_eq _ (watched_enqw ..)
  case rawbatch pairs =>
    simp only [exec, execRawbatch] at h
    split at h
    · cases h; exact .of_eq _ (rawWrites_watched s pairs)
    · cases h
  case snapshot => cases h; exact .snapshot _
  case effectname => cases h; exact .effectname _ _
  case setskip b => cases h; exact .setskip b
  case setlog b => cases h; exact .setlog b
  -- commands
  case porta => exact .of_eq _ (execPorta_watched h)
  case samplePos => exact .of_eq _ (execSamplePos_watched h)
  case nopCmd cmd => exact .of_eq _ (execNopCmd_watched (cmd := cmd) h)
  case noteOn | noteOff | instrument | volume | panning | pitch | filterMode | filterK1 | filterK2 | envCount |
      envLvramp | envRvramp | envK1ramp | envK2ramp => exact .of_eq _ (onChannel_watched h)
  -- transactions
  case lwrite => cases h; exact .nothing _
  case lread =>
    simp only [exec, execLread] at h
    obtain ⟨_, hnext⟩ := withAccumulator_next h
    cases hnext; exact .nothing _
  case bwr step address value mask delay =>
    cases h
    obtain ⟨acc, pool, hlen, hk⟩ := busPhase_busChanges (s.pushPQ ⟨.write value, step, address, mask, delay⟩)
    exact hk ▸ .bwr step address value mask delay acc pool hlen
  case brd step address dest mask delay =>
    simp only [exec, execBrd] at h
    obtain ⟨_, hnext⟩ := withAccumulator_next h
    cases hnext
    obtain ⟨acc, pool, hlen, hk⟩ := busPhase_busChanges (s.pushPQ ⟨.read dest.toNat, step, address, mask, delay⟩)
    exact hk ▸ .brd step address dest mask delay acc pool hlen
  -- the edge and its cases
  case edge =>
    cases h
    obtain ⟨acc, pool, hlen, hk⟩ := edgeStep_busChanges s
    exact hk ▸ .edge acc pool hlen
  case edgeSvc => cases h; exact .of_eq _ (watched_irqService s)
  case edgeBusy => cases h; exact selectedCase_mayWrite (c := .busy) (.nothing _)
  case edgeIdle => cases h; exact selectedCase_mayWrite (c := .idle) (.nothing _)
  case edgeRd =>
    cases h
    exact selectedCase_mayWrite (c := .rd) (edgeRd_watched s ▸ .edgeRd _ (edgeRd_acc_length s))
  case edgeWfull => cases h; exact selectedCase_mayWrite (c := .wfull) (edgeWfull_watched s ▸ .edgeWfull _)
  case edgeWstage => cases h; exact selectedCase_mayWrite (c := .wstage) (.of_eq _ (edgeWstage_watched s))
  case edgeWcommit => cases h; exact selectedCase_mayWrite (c := .wcommit) (edgeWcommit_watched s ▸ .edgeWcommit _)
  -- the translator's steps
  case tMacro => cases h; exact .nothing _
  case tVol => cases h; exact .of_eq _ (watched_tVol ..)
  case tFilt => cases h; exact .of_eq _ (watched_tFilt ..)
  case tEnv => cases h; exact .of_eq _ (watched_tEnv ..)
  case tFreq => cases h; exact .of_eq _ (watched_tFreq ..)
  case tKeyon => cases h; exact .of_eq _ (watched_tKeyon ..)
  case tKeyoff => cases h; exact .of_eq _ (watched_tKeyoff ..)
  case tFreqw => cases h; exact .of_eq _ (watched_tFreqw ..)
  -- the queue
  case enqw =>
    simp only [exec, execEnqw] at h
    obtain ⟨_, hnext⟩ := withAddress_next h
    cases hnext; exact .of_eq _ (watched_enqw ..)
  case enqr =>
    simp only [exec, execEnqr] at h
    obtain ⟨_, haddr⟩ := withAddress_next h
    obtain ⟨_, hnext⟩ := withAccumulator_next haddr
    cases hnext; exact .nothing _
  case expand => cases h; exact .nothing _
  case pagesel p pm =>
    simp only [exec, execPagesel] at h
    obtain ⟨hp, hnext⟩ := withPage_next h
    cases hnext; exact .of_eq _ (pageSel_queuesOnly s (by simpa using by omega) pm).watched_eq
  case pgwritem p pm r v m d =>
    simp only [exec, execPgwritem] at h
    obtain ⟨hp, hpage⟩ := withPage_next h
    obtain ⟨_, hnext⟩ := withAddress_next hpage
    cases hnext; exact .of_eq _ (pgWriteM_queuesOnly s (by simpa using by omega) ..).watched_eq
  case pgwrite p r v m d =>
    simp only [exec, execPgwrite] at h
    obtain ⟨hp, hpage⟩ := withPage_next h
    obtain ⟨_, hnext⟩ := withAddress_next hpage
    cases hnext; exact .of_eq _ (pgWriteM_queuesOnly s (by simpa using by omega) ..).watched_eq
  case irqAssert => cases h; exact .nothing _

/-! ### Who writes what, read off for each part -/

theorem MayWrite.fixed {k k' : Watched} {i : Instr} (h : MayWrite k i k') :
    k'.cfg = k.cfg ∧ k'.port = k.port ∧ k'.stores = k.stores ∧ k'.acc.length = k.acc.length := by
  cases h with
  | reset _ hlen | edgeRd _ hlen | edge _ _ hlen | generate _ _ _ _ _ hlen
  | bwr _ _ _ _ _ _ _ hlen | brd _ _ _ _ _ _ _ hlen => exact ⟨rfl, rfl, rfl, hlen⟩
  | _ => exact ⟨rfl, rfl, rfl, rfl⟩

theorem MayWrite.settings {k k' : Watched} {i : Instr} (h : MayWrite k i k') :
    (k'.skipWrites ≠ k.skipWrites → ∃ b, i = .setskip b) ∧
    (k'.logEnable ≠ k.logEnable → ∃ b, i = .setlog b) ∧
    (k'.initChanMax ≠ k.initChanMax → ∃ n, i = .setchan n) ∧
    (k'.chanMax ≠ k.chanMax → i = .reset ∨ ∃ n, i = .setchan n) ∧
    (k'.muted ≠ k.muted → ∃ j b, i = .mute j b) := by
  cases h <;> simp

theorem MayWrite.results {k k' : Watched} {i : Instr} (h : MayWrite k i k') :
    (k'.snapshot ≠ k.snapshot → i = .snapshot) ∧
    (k'.effectName ≠ k.effectName → ∃ n, i = .effectname n) ∧
    (k'.samples ≠ k.samples → ∃ o n, i = .generate o n) := by
  cases h <;> simp

theorem MayWrite.accumulators {k k' : Watched} {i : Instr} (h : MayWrite k i k') (hacc : k'.acc ≠ k.acc) :
    i = .reset ∨ i = .edge ∨ i = .edgeRd ∨ (∃ o n, i = .generate o n) ∨
      ∃ st a v m d, i = .bwr st a v m d ∨ i = .brd st a v m d := by
  cases h <;> simp at hacc ⊢

theorem MayWrite.poolByte {k k' : Watched} {i : Instr} (h : MayWrite k i k')
    (hpool : ∃ a, Memory.read k'.pool a ≠ Memory.read k.pool a) :
    i = .edge ∨ i = .edgeWfull ∨ i = .edgeWcommit ∨ (∃ o n, i = .generate o n) ∨
      ∃ st a v m d, i = .bwr st a v m d ∨ i = .brd st a v m d := by
  cases h <;> simp at hpool ⊢

/-- Settles O12: what each operation may write, read off for each part. -/
theorem whoWritesWhat : Obligations.WhoWritesWhat := by
  intro i s t h
  have hmay := exec_mayWrite h
  obtain ⟨hcfg, hport, hstores, hlen⟩ := hmay.fixed
  obtain ⟨hskip, hlog, hinit, hchan, hmuted⟩ := hmay.settings
  obtain ⟨hsnapshot, heffect, hsamples⟩ := hmay.results
  exact ⟨hcfg, hport, hstores, hlen, hskip, hlog, hinit, hchan, hmuted, hsnapshot, heffect, hsamples,
    hmay.accumulators, hmay.poolByte⟩

end Sys2Proof.Machine
end

section
/-! PROOFS. The device sees the queued transactions in program order (20_memory.md R82, R86, 41_edge_sequencer.md
R159). An operation either adds work behind the queues or takes one bus phase after another; GENERATE does both in
turn. -/

namespace Sys2Proof.Machine

/-! ### Bus accesses among device calls -/

@[simp] theorem busAccesses_append (xs ys : List DevCall) :
    busAccesses (xs ++ ys) = busAccesses xs ++ busAccesses ys :=
  List.filterMap_append

@[simp] theorem busAccesses_nil : busAccesses [] = [] := rfl

@[simp] theorem busAccesses_bus (b : BusCycle) : busAccesses [.bus b] = [(b.write, b.addr)] := rfl

/-! ### What is staged -/

theorem staged_of_not_holdValid {s : State} (hv : s.holdValid = false) : s.staged = [] := by
  simp [State.staged, hv]

theorem staged_of_holdValid {s : State} {w : PT} {rest : List PT} (hv : s.holdValid = true) (hq : s.pq = w :: rest) :
    s.staged = [(false, ptAddr w)] := by
  simp [State.staged, hv, hq]

theorem holdInv_of_not_holdValid {s : State} (hv : s.holdValid = false) : s.holdInv := by
  simp [State.holdInv, hv]

/-- While the bus is busy nothing is staged. -/
theorem not_holdValid_of_busy {s : State} (hinv : s.holdInv) (hc : 0 < s.cycle) : s.holdValid = false := by
  by_contra hv
  obtain ⟨hzero, _⟩ := hinv (by simpa using hv)
  omega

/-- Nothing is staged for a read. -/
theorem not_holdValid_of_read {s : State} {w : PT} {rest : List PT} {d : Nat} (hinv : s.holdInv)
    (hq : s.pq = w :: rest) (hw : w.payload = .read d) : s.holdValid = false := by
  by_contra hv
  obtain ⟨_, w', rest', v, hq', hw', _⟩ := hinv (by simpa using hv)
  simp_all

/-- Nothing is staged for a whole byte. -/
theorem not_holdValid_of_full {s : State} {w : PT} {rest : List PT} (hinv : s.holdInv)
    (hq : s.pq = w :: rest) (hm : byteMask w = 0xFF) : s.holdValid = false := by
  by_contra hv
  obtain ⟨_, w', rest', v, hq', _, hm'⟩ := hinv (by simpa using hv)
  simp_all

/-! ### Program order as a relation -/

/-- From a state with the holding-register invariant, which is kept: new work joins behind the backlog, and the bus
accesses made, from the staging read on, are those of the oldest work, which leaves the backlog. -/
def FollowsOrder (s t : State) : Prop :=
  s.holdInv → t.holdInv ∧ ∃ (calls : List DevCall) (new done : List PT),
    t.trace = s.trace ++ calls ∧ s.backlog ++ new = done ++ t.backlog ∧
      s.staged ++ busAccesses calls = done.flatMap accessesOf ++ t.staged

theorem FollowsOrder.trans {s t u : State} (h : FollowsOrder s t) (h' : FollowsOrder t u) : FollowsOrder s u := by
  intro hinv
  obtain ⟨hinv', calls, new, done, htrace, hbacklog, haccess⟩ := h hinv
  obtain ⟨hinv'', calls', new', done', htrace', hbacklog', haccess'⟩ := h' hinv'
  refine ⟨hinv'', calls ++ calls', new ++ new', done ++ done', ?trace, ?backlog, ?accesses⟩
  case trace => rw [htrace', htrace, List.append_assoc]
  case backlog =>
    calc s.backlog ++ (new ++ new') = done ++ (t.backlog ++ new') := by
          rw [← List.append_assoc, hbacklog, List.append_assoc]
      _ = (done ++ done') ++ u.backlog := by rw [hbacklog', List.append_assoc]
  case accesses =>
    calc s.staged ++ busAccesses (calls ++ calls')
        = done.flatMap accessesOf ++ (t.staged ++ busAccesses calls') := by
          rw [busAccesses_append, ← List.append_assoc, haccess, List.append_assoc]
      _ = (done ++ done').flatMap accessesOf ++ u.staged := by
          rw [haccess', List.flatMap_append, List.append_assoc]

/-! ### Operations that only add work -/

/-- Nothing reaches the bus: the front of the queues stays, and what is new stands behind it. -/
def JoinsBehind (s t : State) : Prop :=
  s.pq <+: t.pq ∧ s.backlog <+: t.backlog ∧ t.cycle = s.cycle ∧ t.holdValid = s.holdValid ∧
    ∃ calls, t.trace = s.trace ++ calls ∧ busAccesses calls = []

theorem JoinsBehind.refl (s : State) : JoinsBehind s s :=
  ⟨⟨_, List.append_nil _⟩, ⟨_, List.append_nil _⟩, rfl, rfl, [], (List.append_nil _).symm, rfl⟩

theorem JoinsBehind.trans {s t u : State} (h : JoinsBehind s t) (h' : JoinsBehind t u) : JoinsBehind s u := by
  obtain ⟨hpq, hbacklog, hcycle, hvalid, calls, htrace, hnone⟩ := h
  obtain ⟨hpq', hbacklog', hcycle', hvalid', calls', htrace', hnone'⟩ := h'
  exact ⟨hpq.trans hpq', hbacklog.trans hbacklog', hcycle'.trans hcycle, hvalid'.trans hvalid, calls ++ calls',
    by rw [htrace', htrace, List.append_assoc], by rw [busAccesses_append, hnone, hnone']; rfl⟩

/-- What is staged is the front transaction's, and the front of PQ stays. -/
theorem JoinsBehind.follows {s t : State} (h : JoinsBehind s t) : FollowsOrder s t := by
  obtain ⟨⟨more, hpq⟩, ⟨new, hbacklog⟩, hcycle, hvalid, calls, htrace, hnone⟩ := h
  intro hinv
  by_cases hv : s.holdValid = true
  · obtain ⟨hzero, w, rest, v, hq, hw, hm⟩ := hinv hv
    have hq' : t.pq = w :: (rest ++ more) := by rw [← hpq, hq, List.cons_append]
    have hstaged : t.staged = s.staged := by
      rw [staged_of_holdValid (hvalid.trans hv) hq', staged_of_holdValid hv hq]
    exact ⟨fun _ => ⟨hcycle.trans hzero, w, _, v, hq', hw, hm⟩, calls, new, [], htrace, hbacklog,
      by simp [hnone, hstaged]⟩
  · have hv' : s.holdValid = false := by simpa using hv
    have ht : t.holdValid = false := hvalid.trans hv'
    exact ⟨holdInv_of_not_holdValid ht, calls, new, [], htrace, hbacklog,
      by simp [hnone, staged_of_not_holdValid, hv', ht]⟩

theorem backlog_pushLQ (s : State) (w : LT) : (s.pushLQ w).backlog = s.backlog ++ expandLT w := by
  simp [State.backlog]

theorem backlog_expand (s : State) : s.expand.backlog = s.backlog := by
  simp [State.backlog]

/-- A physical transaction stands behind all other work only where LQ is empty (log 5). -/
theorem backlog_pushPQ {s : State} (hlq : s.lq = []) (w : PT) : (s.pushPQ w).backlog = s.backlog ++ [w] := by
  simp [State.backlog, hlq]

theorem pushLQ_joins (s : State) (w : LT) : JoinsBehind s (s.pushLQ w) :=
  ⟨⟨_, List.append_nil _⟩, ⟨_, (backlog_pushLQ s w).symm⟩, rfl, rfl, [], (List.append_nil _).symm, rfl⟩

theorem pushPQ_joins {s : State} (hlq : s.lq = []) (w : PT) : JoinsBehind s (s.pushPQ w) :=
  ⟨⟨_, rfl⟩, ⟨_, (backlog_pushPQ hlq w).symm⟩, rfl, rfl, [], (List.append_nil _).symm, rfl⟩

theorem expand_joins (s : State) : JoinsBehind s s.expand :=
  ⟨⟨_, rfl⟩, backlog_expand s ▸ ⟨_, List.append_nil _⟩, rfl, rfl, [], (List.append_nil _).symm, rfl⟩

/-- A call of the device that is no bus cycle. -/
theorem note_joins {s : State} {c : DevCall} (hc : busAccesses [c] = []) : JoinsBehind s (s.note c) :=
  ⟨⟨_, List.append_nil _⟩, ⟨_, List.append_nil _⟩, rfl, rfl, [c], rfl, hc⟩

theorem takeTick_joins (s : State) : JoinsBehind s s.takeTick := by
  rw [takeTick_eq]
  exact note_joins (s := s) (c := .tick) rfl

theorem takeMacro_joins (s : State) (i : ChIx) (b : Bool) : JoinsBehind s (s.takeMacro i b) := by
  rw [takeMacro_eq]
  exact JoinsBehind.refl s

theorem QueuesOnly.joins {s t : State} (h : QueuesOnly s t) : JoinsBehind s t := by
  obtain ⟨p, ws, rfl, _, _⟩ := h
  have hbacklog : s.backlog <+: s.pq ++ (s.lq ++ ws).flatMap expandLT := by
    rw [List.flatMap_append, ← List.append_assoc]
    exact ⟨_, rfl⟩
  exact ⟨⟨_, List.append_nil _⟩, hbacklog, rfl, rfl, [], (List.append_nil _).symm, rfl⟩

theorem irqService_joins (s : State) : JoinsBehind s s.irqService := by
  obtain ⟨a, b, h | ⟨c, u, hu, h⟩⟩ := irqService_cases s
  · exact h ▸ JoinsBehind.refl s
  · exact h ▸ hu.joins

theorem irqAssert_joins (s : State) : JoinsBehind s s.irqAssert :=
  pushLQ_joins s _

theorem rawWrites_joins (s : State) (ps : List (Word × Word)) : JoinsBehind s (s.rawWrites ps) :=
  List.foldlRecOn (motive := JoinsBehind s) ps _ (.refl s) fun t ht _ _ => ht.trans (enqw_queuesOnly t ..).joins

theorem setChannels_joins (s : State) (n : BitVec 5) : JoinsBehind s (s.setChannels n) :=
  (pgWriteM_queuesOnly { s with initChanMax := n, chanMax := n } (p := 0) (by decide) ..).joins

/-! ### The translator only adds work -/

theorem JoinsBehind.ite {s t u : State} {c : Prop} [Decidable c] (ht : JoinsBehind s t) (hu : JoinsBehind s u) :
    JoinsBehind s (if c then t else u) := by
  split
  · exact ht
  · exact hu

theorem JoinsBehind.writeA {s t : State} (h : JoinsBehind s t) (i : ChIx) (r : BitVec 4) (v : Word) :
    JoinsBehind s (t.writeA i r v) :=
  h.trans (writeA_queuesOnly t i r v).joins

theorem JoinsBehind.writeCr {s t : State} (h : JoinsBehind s t) (i : ChIx) (v m : Word) :
    JoinsBehind s (t.writeCr i v m) :=
  h.trans (writeCr_queuesOnly t i v m).joins

theorem JoinsBehind.writeAIf {s t : State} (h : JoinsBehind s t) {c : Prop} [Decidable c] {i : ChIx} {r : BitVec 4}
    {v : Word} : JoinsBehind s (if c then t.writeA i r v else t) :=
  .ite (h.writeA i r v) h

theorem JoinsBehind.writeCrIf {s t : State} (h : JoinsBehind s t) {c : Prop} [Decidable c] {i : ChIx} {v m : Word} :
    JoinsBehind s (if c then t.writeCr i v m else t) :=
  .ite (h.writeCr i v m) h

theorem setChan_joins (s : State) (i : ChIx) (c : Chan) : JoinsBehind s (s.setChan i c) := JoinsBehind.refl s

theorem modChan_joins (s : State) (i : ChIx) (f : Chan → Chan) : JoinsBehind s (s.modChan i f) :=
  setChan_joins s i _

theorem tMacro_joins (s : State) (i : ChIx) (m : MacroIn) : JoinsBehind s (s.tMacro i m) := modChan_joins s i _

theorem tVol_joins (s : State) (i : ChIx) : JoinsBehind s (s.tVol i) := by
  have hset c := setChan_joins s i c
  exact .ite (.ite (hset _) (((hset _).writeA ..).writeA ..)) (.refl s)

theorem tFilt_joins (s : State) (i : ChIx) (m : MacroIn) : JoinsBehind s (s.tFilt i m) := by
  have hset c := setChan_joins s i c
  exact .ite (.ite (hset _) (hset _).writeCrIf.writeAIf.writeAIf) (.refl s)

theorem tEnv_joins (s : State) (i : ChIx) : JoinsBehind s (s.tEnv i) := by
  have hset c := setChan_joins s i c
  exact .ite (.ite (hset _) (hset _).writeAIf.writeAIf.writeAIf.writeAIf.writeAIf) (.refl s)

theorem tKeyon_joins (s : State) (i : ChIx) (m : MacroIn) : JoinsBehind s (s.tKeyon i m) :=
  have hwrites := (pageWrites_queuesOnly _ (keyOnWrites_pages s.cfg s.chanMax i m (s.chan i)) s).joins
  .ite (hwrites.trans (modChan_joins _ i _)) (.refl s)

theorem tKeyoff_joins (s : State) (i : ChIx) : JoinsBehind s (s.tKeyoff i) :=
  (JoinsBehind.refl s).writeCrIf

theorem tFreqw_joins (s : State) (i : ChIx) : JoinsBehind s (s.tFreqw i) :=
  (JoinsBehind.refl s).writeAIf

theorem tFreq_joins (s : State) (i : ChIx) (m : MacroIn) : JoinsBehind s (s.tFreq i m) := by
  refine .ite ?_ (.refl s)
  exact (modChan_joins s i _).trans ((tKeyon_joins _ i m).trans ((tKeyoff_joins _ i).trans
    ((tFreqw_joins _ i).trans (modChan_joins _ i _))))

theorem translateChannel_joins (s : State) (b : Bool) (i : ChIx) : JoinsBehind s (s.translateChannel b i) :=
  (takeMacro_joins s i b).trans ((tMacro_joins _ i _).trans ((tVol_joins _ i).trans
    ((tFilt_joins _ i _).trans ((tEnv_joins _ i).trans (tFreq_joins _ i _)))))

theorem translatorPass_joins (s : State) (b : Bool) : JoinsBehind s (s.translatorPass b) :=
  List.foldlRecOn (motive := JoinsBehind s) (visitedChannels s.chanMax) _ (.refl s)
    fun t ht i _ => ht.trans (translateChannel_joins t b i)

/-! ### Commands only add work -/

theorem onChannel_joins {ch : Byte} {s t : State} {f : Chan → Chan} (h : onChannel ch s f = .next t) :
    JoinsBehind s t := by
  obtain ⟨i, _, rfl⟩ := onChannel_next h
  exact modChan_joins s i f

theorem execPorta_joins {ch : Byte} {value value2 : Word} {s t : State} (h : execPorta ch value value2 s = .next t) :
    JoinsBehind s t := by
  obtain ⟨i, _, hnext⟩ := withChannel_next h
  cases hnext
  exact JoinsBehind.refl s

theorem execSamplePos_joins {ch : Byte} {value : Word} {s t : State} (h : execSamplePos ch value s = .next t) :
    JoinsBehind s t := by
  obtain ⟨i, _, hnext⟩ := withChannel_next h
  cases hnext
  exact JoinsBehind.ite (writeB_queuesOnly s i _ _).joins (.refl s)

theorem execNopCmd_joins {cmd : Cmd} {s t : State} (h : execNopCmd cmd s = .next t) : JoinsBehind s t := by
  cases h
  exact JoinsBehind.refl s

theorem execDispatch_joins {cmd : Cmd} {s t : State} (h : execDispatch cmd s = .next t) : JoinsBehind s t := by
  unfold execDispatch at h
  split at h
  case h_7 => exact execPorta_joins h
  case h_8 => exact execSamplePos_joins h
  case h_17 => exact execNopCmd_joins h
  all_goals exact onChannel_joins h

/-! ### The bus phase serves the front transaction -/

theorem accessesOf_read {w : PT} {d : Nat} (hw : w.payload = .read d) : accessesOf w = [(false, ptAddr w)] := by
  simp [accessesOf, hw]

theorem accessesOf_full {w : PT} {v : Word} (hw : w.payload = .write v) (hm : byteMask w = 0xFF) :
    accessesOf w = [(true, ptAddr w)] := by
  simp [accessesOf, hw, hm]

theorem accessesOf_partial {w : PT} {v : Word} (hw : w.payload = .write v) (hm : byteMask w ≠ 0xFF) :
    accessesOf w = [(false, ptAddr w), (true, ptAddr w)] := by
  simp only [accessesOf, hw, if_neg hm]

theorem backlog_of_pq_cons {s : State} {w : PT} {rest : List PT} (hq : s.pq = w :: rest) :
    s.backlog = [w] ++ (rest ++ s.lq.flatMap expandLT) := by
  simp [State.backlog, hq]

/-- A phase that makes the last access of the front transaction and takes it off PQ. -/
theorem follows_of_served {s t : State} {w : PT} {rest : List PT} {b : BusCycle} (hq : s.pq = w :: rest)
    (hq' : t.pq = rest) (hlq : t.lq = s.lq) (hv : t.holdValid = false) (htrace : t.trace = s.trace ++ [.bus b])
    (haccess : s.staged ++ [(b.write, b.addr)] = accessesOf w) : FollowsOrder s t := by
  intro _
  have hbacklog : s.backlog ++ [] = [w] ++ t.backlog := by
    rw [backlog_of_pq_cons hq, List.append_nil, State.backlog, hq', hlq]
  exact ⟨holdInv_of_not_holdValid hv, [.bus b], [], [w], htrace, hbacklog,
    by simp [haccess, staged_of_not_holdValid hv]⟩

/-- The staging read: the front transaction stays, with its read made. -/
theorem follows_of_staged {s t : State} {w : PT} {rest : List PT} {v : Word} {b : BusCycle} (hc : t.cycle = 0)
    (hq : s.pq = w :: rest) (hw : w.payload = .write v) (hm : byteMask w ≠ 0xFF) (hv : s.holdValid = false)
    (hq' : t.pq = s.pq) (hlq : t.lq = s.lq) (hv' : t.holdValid = true) (htrace : t.trace = s.trace ++ [.bus b])
    (haccess : (b.write, b.addr) = (false, ptAddr w)) : FollowsOrder s t := by
  intro _
  have hqt : t.pq = w :: rest := hq'.trans hq
  have hbacklog : s.backlog ++ [] = [] ++ t.backlog := by
    rw [List.append_nil, List.nil_append, State.backlog, State.backlog, hq', hlq]
  exact ⟨fun _ => ⟨hc, w, rest, v, hqt, hw, hm⟩, [.bus b], [], [], htrace, hbacklog,
    by simp [haccess, staged_of_not_holdValid hv, staged_of_holdValid hv' hqt]⟩

/-- Each case of the bus phase: the device is not called, or the last access of the front transaction is made, or
its staging read. -/
theorem busPhase_follows (s : State) : FollowsOrder s s.busPhase := by
  intro hinv
  obtain ⟨hc, h⟩ | ⟨_, _, h⟩ | ⟨w, rest, hc, hq, ⟨d, hw, h⟩ | ⟨v, hw, ⟨hm, h⟩ | ⟨hm, hv, h⟩ | ⟨hm, hv, h⟩⟩⟩ :=
    busPhase_cases s
  · -- EDGE.BUSY
    have hv := not_holdValid_of_busy hinv hc
    rw [h]
    exact ⟨holdInv_of_not_holdValid hv, [], [], [], by simp, by simp [State.backlog], by simp [State.staged]⟩
  · -- EDGE.IDLE
    rw [h]
    exact (JoinsBehind.refl s).follows hinv
  · -- EDGE.RD
    have hv := not_holdValid_of_read hinv hq hw
    rw [h]
    exact follows_of_served hq rfl rfl hv rfl
      (by rw [staged_of_not_holdValid hv, accessesOf_read hw]; rfl) hinv
  · -- EDGE.WFULL
    have hv := not_holdValid_of_full hinv hq hm
    rw [h]
    exact follows_of_served hq rfl rfl rfl rfl
      (by rw [staged_of_not_holdValid hv, accessesOf_full hw hm]; rfl) hinv
  · -- EDGE.WCOMMIT
    rw [h]
    exact follows_of_served hq rfl rfl rfl rfl
      (by rw [staged_of_holdValid hv hq, accessesOf_partial hw hm]; rfl) hinv
  · -- EDGE.WSTAGE
    rw [h]
    exact follows_of_staged hc hq hw hm hv rfl rfl rfl rfl rfl hinv

theorem selectedCase_follows (s : State) (c : BusCase) : FollowsOrder s (s.selectedCase c) := by
  unfold State.selectedCase
  split
  · exact busPhase_follows s
  · exact (JoinsBehind.refl s).follows

theorem edgeStep_follows (s : State) : FollowsOrder s s.edgeStep :=
  (irqService_joins s).follows.trans (busPhase_follows _)

/-- BWR and BRD: the transaction joins a PQ with nothing waiting in LQ, and one bus phase is taken. -/
theorem pushPQ_busPhase_follows {s : State} (hlq : s.lq = []) (w : PT) : FollowsOrder s (s.pushPQ w).busPhase :=
  (pushPQ_joins hlq w).follows.trans (busPhase_follows _)

/-! ### GENERATE -/

theorem devEvent_follows (s : State) (e : DevEvent) : FollowsOrder s (s.devEvent e) := by
  cases e with
  | risingEdge => exact edgeStep_follows s
  | irq => exact (irqAssert_joins s).follows

theorem devEvents_follows (s : State) (es : List DevEvent) : FollowsOrder s (es.foldl State.devEvent s) :=
  List.foldlRecOn (motive := FollowsOrder s) es _ (JoinsBehind.refl s).follows
    fun t ht e _ => ht.trans (devEvent_follows t e)

theorem sample_follows (s : State) (k : Nat) : FollowsOrder s (s.sample k) :=
  (expand_joins s).follows.trans ((takeTick_joins _).follows.trans (devEvents_follows _ _))

theorem generateFrom_follows (s : State) (k n : Nat) : FollowsOrder s (s.generateFrom k n) := by
  induction n generalizing s k with
  | zero => exact (JoinsBehind.refl s).follows
  | succ n ih => exact (sample_follows s k).trans (ih (s.sample k) (k + 1))

/-! ### Every operation -/

/-- RESET drops the queues, and behind a filled LQ a physical transaction overtakes (log 5); every other operation
follows program order. -/
theorem exec_follows {i : Instr} {s t : State} (h : exec i s = .next t) (hreset : i ≠ .reset)
    (hlq : (∃ st a v m d, i = .bwr st a v m d ∨ i = .brd st a v m d) → s.lq = []) : FollowsOrder s t := by
  cases i
  -- host operations
  case reset => exact absurd rfl hreset
  case generate offset length =>
    cases h; exact generateFrom_follows { s with samples := [] } offset.toNat length.toNat
  case tick b => cases h; exact (translatorPass_joins s b).follows
  case dispatch => exact (execDispatch_joins h).follows
  case setchan n => cases h; exact (setChannels_joins s _).follows
  case mute index b =>
    simp only [exec, execMute] at h
    split at h
    · cases h; exact (note_joins (s := s) rfl).follows
    · cases h
  case rawwrite =>
    simp only [exec, execRawwrite] at h
    obtain ⟨_, hnext⟩ := withAddress_next h
    cases hnext; exact (enqw_queuesOnly s ..).joins.follows
  case rawbatch pairs =>
    simp only [exec, execRawbatch] at h
    split at h
    · cases h; exact (rawWrites_joins s pairs).follows
    · cases h
  case resync | snapshot | effectname | setskip | setlog => cases h; exact (JoinsBehind.refl s).follows
  -- commands
  case porta => exact (execPorta_joins h).follows
  case samplePos => exact (execSamplePos_joins h).follows
  case nopCmd cmd => exact (execNopCmd_joins (cmd := cmd) h).follows
  case noteOn | noteOff | instrument | volume | panning | pitch | filterMode | filterK1 | filterK2 | envCount |
      envLvramp | envRvramp | envK1ramp | envK2ramp => exact (onChannel_joins h).follows
  -- transactions
  case lwrite => cases h; exact ((pushLQ_joins s _).trans (expand_joins _)).follows
  case lread =>
    simp only [exec, execLread] at h
    obtain ⟨_, hnext⟩ := withAccumulator_next h
    cases hnext; exact ((pushLQ_joins s _).trans (expand_joins _)).follows
  case bwr step address value mask delay =>
    cases h; exact pushPQ_busPhase_follows (hlq ⟨_, _, _, _, _, .inl rfl⟩) _
  case brd step address dest mask delay =>
    simp only [exec, execBrd] at h
    obtain ⟨_, hnext⟩ := withAccumulator_next h
    cases hnext; exact pushPQ_busPhase_follows (hlq ⟨_, _, _, _, _, .inr rfl⟩) _
  -- the edge and its cases
  case edge => cases h; exact edgeStep_follows s
  case edgeSvc => cases h; exact (irqService_joins s).follows
  case edgeBusy | edgeIdle | edgeRd | edgeWfull | edgeWstage | edgeWcommit => cases h; exact selectedCase_follows s _
  -- the translator's steps
  case tMacro i m => cases h; exact (tMacro_joins s i m).follows
  case tVol i => cases h; exact (tVol_joins s i).follows
  case tFilt i m => cases h; exact (tFilt_joins s i m).follows
  case tEnv i => cases h; exact (tEnv_joins s i).follows
  case tFreq i m => cases h; exact (tFreq_joins s i m).follows
  case tKeyon i m => cases h; exact (tKeyon_joins s i m).follows
  case tKeyoff i => cases h; exact (tKeyoff_joins s i).follows
  case tFreqw i => cases h; exact (tFreqw_joins s i).follows
  -- the queue
  case enqw =>
    simp only [exec, execEnqw] at h
    obtain ⟨_, hnext⟩ := withAddress_next h
    cases hnext; exact (enqw_queuesOnly s ..).joins.follows
  case enqr =>
    simp only [exec, execEnqr] at h
    obtain ⟨_, haddr⟩ := withAddress_next h
    obtain ⟨_, hnext⟩ := withAccumulator_next haddr
    cases hnext; exact (pushLQ_joins s _).follows
  case expand => cases h; exact (expand_joins s).follows
  case pagesel p pm =>
    simp only [exec, execPagesel] at h
    obtain ⟨hp, hnext⟩ := withPage_next h
    cases hnext; exact (pageSel_queuesOnly s (by simpa using by omega) pm).joins.follows
  case pgwritem p pm r v m d =>
    simp only [exec, execPgwritem] at h
    obtain ⟨hp, hpage⟩ := withPage_next h
    obtain ⟨_, hnext⟩ := withAddress_next hpage
    cases hnext; exact (pgWriteM_queuesOnly s (by simpa using by omega) ..).joins.follows
  case pgwrite p r v m d =>
    simp only [exec, execPgwrite] at h
    obtain ⟨hp, hpage⟩ := withPage_next h
    obtain ⟨_, hnext⟩ := withAddress_next hpage
    cases hnext; exact (pgWriteM_queuesOnly s (by simpa using by omega) ..).joins.follows
  case irqAssert => cases h; exact (irqAssert_joins s).follows

/-- Settles O10: every operation but RESET follows program order, and the work served is counted. -/
theorem busFollowsProgramOrder : Obligations.BusFollowsProgramOrder := by
  intro i s t hinv h hreset hlq
  obtain ⟨_, calls, new, done, htrace, hbacklog, haccess⟩ := exec_follows h hreset hlq hinv
  refine ⟨calls, new, done.length, htrace, ?served, ?left, ?accesses⟩ <;> rw [hbacklog]
  case served => simp
  case left => rw [List.drop_left]
  case accesses => rw [List.take_left, haccess]

end Sys2Proof.Machine
end

section
/-! PROOFS. The encodings (30_encoding.md R102 to R108): what the decoder reads is what the encoder wrote, and is
well-formed; the fields of a packed transaction; the selector word of a state. -/

namespace Sys2Proof.Laws

open Sys2Proof.Machine

/-! ### Decoding what the encoder writes -/

/-- Every well-formed operation is read back from its record, row by row of the opcode table. -/
theorem decode_encode : ∀ i : Instr, Encodable.Statement i
  | .reset => Encodable.reset
  | .generate o n => Encodable.generate o n
  | .tick b => Encodable.tick b
  | .dispatch c => Encodable.dispatch c
  | .setchan n => Encodable.setchan n
  | .mute i b => Encodable.mute i b
  | .resync => Encodable.resync
  | .rawwrite a v => Encodable.rawwrite a v
  | .rawbatch ps => Encodable.rawbatch ps
  | .snapshot => Encodable.snapshot
  | .effectname c => Encodable.effectname c
  | .setskip b => Encodable.setskip b
  | .setlog b => Encodable.setlog b
  | .noteOn ch v => Encodable.noteOn ch v
  | .noteOff ch => Encodable.noteOff ch
  | .instrument ch v => Encodable.instrument ch v
  | .volume ch v => Encodable.volume ch v
  | .panning ch v v2 => Encodable.panning ch v v2
  | .pitch ch v => Encodable.pitch ch v
  | .porta ch v v2 => Encodable.porta ch v v2
  | .samplePos ch v => Encodable.samplePos ch v
  | .filterMode ch v => Encodable.filterMode ch v
  | .filterK1 ch v => Encodable.filterK1 ch v
  | .filterK2 ch v => Encodable.filterK2 ch v
  | .envCount ch v => Encodable.envCount ch v
  | .envLvramp ch v => Encodable.envLvramp ch v
  | .envRvramp ch v => Encodable.envRvramp ch v
  | .envK1ramp ch v v2 => Encodable.envK1ramp ch v v2
  | .envK2ramp ch v v2 => Encodable.envK2ramp ch v v2
  | .nopCmd c => Encodable.nopCmd c
  | .lwrite a v m d => Encodable.lwrite a v m d
  | .lread a t m d => Encodable.lread a t m d
  | .bwr s a v m d => Encodable.bwr s a v m d
  | .brd s a t m d => Encodable.brd s a t m d
  | .edge => Encodable.edge
  | .edgeSvc => Encodable.edgeSvc
  | .edgeBusy => Encodable.edgeBusy
  | .edgeIdle => Encodable.edgeIdle
  | .edgeRd => Encodable.edgeRd
  | .edgeWfull => Encodable.edgeWfull
  | .edgeWstage => Encodable.edgeWstage
  | .edgeWcommit => Encodable.edgeWcommit
  | .tMacro i m => Encodable.tMacro i m
  | .tVol i => Encodable.tVol i
  | .tFilt i m => Encodable.tFilt i m
  | .tEnv i => Encodable.tEnv i
  | .tFreq i m => Encodable.tFreq i m
  | .tKeyon i m => Encodable.tKeyon i m
  | .tKeyoff i => Encodable.tKeyoff i
  | .tFreqw i => Encodable.tFreqw i
  | .enqw a v m d => Encodable.enqw a v m d
  | .enqr a t m d => Encodable.enqr a t m d
  | .expand => Encodable.expand
  | .pagesel p pm => Encodable.pagesel p pm
  | .pgwritem p pm r v m d => Encodable.pgwritem p pm r v m d
  | .pgwrite p r v m d => Encodable.pgwrite p r v m d
  | .irqAssert => Encodable.irqAssert

/-- Settles O1, by the row of the opcode table that the operation is of. -/
theorem decodeOfEncodeIsIdentity : Obligations.DecodeOfEncodeIsIdentity := decode_encode

/-! ### Operand readers yield well-formed operations -/

theorem orReject_eq_ok_iff {r : Reject} {o : Option Instr} {i : Instr} : orReject r o = .ok i ↔ o = some i := by
  cases o <;> simp [orReject]

theorem ops0_wf {j i : Instr} {bs : List Byte} (h : ops0 j bs = some i) (hj : j.wf = true) : i.wf = true := by
  unfold ops0 at h
  split at h
  · cases h; exact hj
  · cases h

theorem ops1_wf {f : Word → Instr} {i : Instr} {bs : List Byte} (h : ops1 f bs = some i)
    (hf : ∀ a, (f a).wf = true) : i.wf = true := by
  unfold ops1 at h
  split at h
  · cases h; exact hf _
  · cases h

theorem ops2_wf {f : Word → Word → Instr} {i : Instr} {bs : List Byte} (h : ops2 f bs = some i)
    (hf : ∀ a b, (f a b).wf = true) : i.wf = true := by
  unfold ops2 at h
  split at h
  · cases h; exact hf _ _
  · cases h

theorem ops4_wf {f : Word → Word → Word → Word → Instr} {i : Instr} {bs : List Byte}
    (h : ops4 f bs = some i) (hf : ∀ a b c d, (f a b c d).wf = true) : i.wf = true := by
  unfold ops4 at h
  split at h
  · cases h; exact hf _ _ _ _
  · cases h

theorem opsChan_wf {f : ChIx → Instr} {i : Instr} {bs : List Byte} (h : opsChan f bs = some i)
    (hf : ∀ ch, (f ch).wf = true) : i.wf = true := by
  unfold opsChan at h
  split at h
  · obtain ⟨ch, -, rfl⟩ := Option.map_eq_some_iff.mp h; exact hf ch
  · cases h

theorem opsPagesel_wf {i : Instr} {bs : List Byte} (h : opsPagesel bs = some i) : i.wf = true := by
  unfold opsPagesel at h
  split at h
  · cases h; rfl
  · cases h

theorem opsPgwritem_wf {i : Instr} {bs : List Byte} (h : opsPgwritem bs = some i) : i.wf = true := by
  unfold opsPgwritem at h
  split at h
  · exact ops4_wf h fun _ _ _ _ => rfl
  · cases h

theorem opsPgwrite_wf {i : Instr} {bs : List Byte} (h : opsPgwrite bs = some i) : i.wf = true := by
  unfold opsPgwrite at h
  split at h
  · exact ops4_wf h fun _ _ _ _ => rfl
  · cases h

/-- A batch is accepted only where its 32-bit count operand is its length. -/
theorem opsBatch_wf {i : Instr} {bs : List Byte} (h : opsBatch bs = some i) : i.wf = true := by
  unfold opsBatch at h
  split at h
  · next n0 n1 n2 n3 rest =>
    split at h
    · next ps _ =>
      obtain ⟨hcount, hi⟩ := Option.ite_none_right_eq_some.mp h
      cases hi
      have hfits := (wordOfBytes n0 n1 n2 n3).isLt
      simpa [Instr.wf, ← hcount] using hfits
    · cases h
  · cases h

/-! ### Macro operands -/

theorem fits32_toInt (v : Word) : fits32 v.toInt = true := by
  have hlo := v.le_toInt
  have hhi := v.toInt_lt
  simp only [fits32, Bool.and_eq_true, decide_eq_true_eq]
  omega

theorem slotsOf_wf {bs : List Byte} {ts : List Slot} (h : slotsOf bs = some ts) : ∀ t ∈ ts, t.wf = true := by
  induction bs using slotsOf.induct generalizing ts with
  | case1 => simp_all [slotsOf]
  | case2 hd a0 a1 a2 a3 b0 b1 b2 b3 rest hle ih =>
    simp only [slotsOf, hle, if_true, Option.map_eq_some_iff] at h
    obtain ⟨us, hrest, rfl⟩ := h
    simpa [Slot.wf, fits32_toInt] using ih hrest
  | case3 hd a0 a1 a2 a3 b0 b1 b2 b3 rest hgt => simp [slotsOf, hgt] at h
  | case4 bs hnil hcons => simp_all [slotsOf]

theorem macroOf_wf {ts : List Slot} {m : MacroIn} (hts : ∀ t ∈ ts, t.wf = true) (h : macroOf ts = some m) :
    m.wf = true := by
  unfold macroOf at h
  split at h
  · cases h; simp [MacroIn.wf, hts]
  · cases h

theorem opsMacro_wf {f : ChIx → MacroIn → Instr} {i : Instr} {bs : List Byte}
    (h : opsMacro f bs = some i) (hf : ∀ ch m, m.wf = true → (f ch m).wf = true) : i.wf = true := by
  unfold opsMacro at h
  split at h
  · split at h
    · next hm =>
      obtain ⟨ts, hslots, hmacro⟩ := Option.bind_eq_some_iff.mp hm
      cases h; exact hf _ _ (macroOf_wf (slotsOf_wf hslots) hmacro)
    · cases h
  · cases h

/-! ### Each format yields well-formed operations -/

/-- NOP_CMD is reached only by a kind that none of the sixteen rows before it names (30_encoding.md R106). -/
theorem decodeCmd_wf (c : Cmd) : (decodeCmd c).wf = true := by
  unfold decodeCmd
  split
  case h_17 =>
    have hunknown : c.kind ∉ knownKinds := by
      simp only [knownKinds, List.mem_cons, List.not_mem_nil, or_false, not_or, ← BitVec.toNat_inj]
      and_intros <;> assumption
    simpa [Instr.wf] using hunknown
  all_goals rfl

/-- Every code of 30_encoding.md R107 reads its operands with one of the readers; any other code is refused. -/
theorem decodeHop_wf {bs : List Byte} {i : Instr} (h : decodeHop bs = .ok i) : i.wf = true := by
  unfold decodeHop at h
  split at h
  · cases h
  · split at h
    case h_14 => cases h
    all_goals rw [orReject_eq_ok_iff] at h
    · exact ops0_wf h rfl
    · exact ops2_wf h fun _ _ => rfl
    · exact ops1_wf h fun _ => rfl
    · obtain ⟨c, -, rfl⟩ := Option.map_eq_some_iff.mp h; rfl
    · exact ops1_wf h fun _ => rfl
    · exact ops2_wf h fun _ _ => rfl
    · exact ops0_wf h rfl
    · exact ops2_wf h fun _ _ => rfl
    · exact opsBatch_wf h
    · exact ops0_wf h rfl
    · exact ops1_wf h fun _ => rfl
    · exact ops1_wf h fun _ => rfl
    · exact ops1_wf h fun _ => rfl

/-- Every transaction is well-formed, whatever its fields hold (30_encoding.md R102). -/
theorem decodeQ120_wf {bs : List Byte} {i : Instr} (h : decodeQ120 bs = .ok i) : i.wf = true := by
  unfold decodeQ120 at h
  repeat' split at h
  all_goals cases h <;> rfl

/-- A selector word names a bus-phase case, which has no operand. -/
theorem decodeSelector_wf {bs : List Byte} {i : Instr} (h : decodeSelector bs = .ok i) : i.wf = true := by
  unfold decodeSelector at h
  repeat' split at h
  all_goals cases h <;> rfl

/-- Every code of the `call` format reads its operands with one of the readers (log 2). -/
theorem decodeCall_wf {bs : List Byte} {i : Instr} (h : decodeCall bs = .ok i) : i.wf = true := by
  unfold decodeCall at h
  split at h
  · cases h
  · split at h
    case h_18 => cases h
    all_goals rw [orReject_eq_ok_iff] at h
    · exact ops0_wf h rfl
    · exact ops0_wf h rfl
    · exact opsMacro_wf h fun _ _ hm => hm
    · exact opsChan_wf h fun _ => rfl
    · exact opsMacro_wf h fun _ _ hm => hm
    · exact opsChan_wf h fun _ => rfl
    · exact opsMacro_wf h fun _ _ hm => hm
    · exact opsMacro_wf h fun _ _ hm => hm
    · exact opsChan_wf h fun _ => rfl
    · exact opsChan_wf h fun _ => rfl
    · exact ops4_wf h fun _ _ _ _ => rfl
    · exact ops4_wf h fun _ _ _ _ => rfl
    · exact ops0_wf h rfl
    · exact opsPagesel_wf h
    · exact opsPgwritem_wf h
    · exact opsPgwrite_wf h
    · exact ops0_wf h rfl

/-- Settles O2, format by format. -/
theorem decodedIsWellFormed : Obligations.DecodedIsWellFormed := by
  intro ⟨fmt, bs⟩ i h
  cases fmt with
  | hop => exact decodeHop_wf h
  | cmd =>
    obtain ⟨c, -, rfl⟩ := Option.map_eq_some_iff.mp (orReject_eq_ok_iff.mp h)
    exact decodeCmd_wf c
  | q120 => exact decodeQ120_wf h
  | edge => exact decodeSelector_wf h
  | call => exact decodeCall_wf h

/-! ### The fields of a packed transaction (30_encoding.md R102) -/

theorem byteOf_ofNat (n : Nat) (s : BitVec 2) : byteOf (BitVec.ofNat 32 n) s = BitVec.ofNat 8 (n >>> shiftOf s) := by
  apply BitVec.eq_of_getLsbD_eq
  intro k hk
  have hin : shiftOf s + k < 32 := by unfold shiftOf; omega
  simp only [byteOf_getLsbD, BitVec.getLsbD_ofNat, Nat.testBit_shiftRight, hk, hin, decide_true, Bool.true_and]

/-- The fifteen bytes of a 120-bit word: three single bytes, then three 32-bit fields. -/
theorem bytesDown_fifteen (w : Nat) :
    bytesDown 15 w = BitVec.ofNat 8 (w / 2 ^ 112) :: BitVec.ofNat 8 (w / 2 ^ 104) :: BitVec.ofNat 8 (w / 2 ^ 96) ::
      (wordBytes (BitVec.ofNat 32 (w / 2 ^ 64)) ++ wordBytes (BitVec.ofNat 32 (w / 2 ^ 32)) ++
        wordBytes (BitVec.ofNat 32 w)) := by
  simp only [wordBytes_eq, byteOf_ofNat, ← Nat.shiftRight_eq_div_pow, ← Nat.shiftRight_add]
  rfl

/-- A word with a bit above 112, a state above 4 or an address above 0x0F is refused. -/
theorem decodeQ120_refuses {z st ad : Byte} {p m d : Word}
    (h : 1 < z.toNat ∨ 4 < st.toNat ∨ 0x0F < ad.toNat) :
    decodeQ120 (z :: st :: ad :: (wordBytes p ++ wordBytes m ++ wordBytes d)) = .error .notATransaction := by
  simp only [wordBytes_eq, List.cons_append, List.nil_append, decodeQ120]
  split
  · split
    · omega
    · omega
    · rw [if_neg (by omega)]
    · rw [if_neg (by omega)]
    · rfl
  · rfl

theorem decodeTableWord_120 {w : Nat} (hw : w < 2 ^ 120) :
    decodeTableWord 120 w = (decode ⟨.q120, bytesDown 15 w⟩).toOption := by
  have hrecord : tableRecord 120 w = ⟨.q120, bytesDown 15 w⟩ := by
    rw [tableRecord, Nat.mod_eq_of_lt hw]
    rfl
  unfold decodeTableWord
  rw [hrecord]
  cases decode ⟨.q120, bytesDown 15 w⟩ <;> rfl

/-- A record whose state is at most 4 is a transaction: the state tells a logical one from a byte of one. -/
theorem q120_decodes_of_state_le {st : Byte} (hst : st.toNat ≤ 4) (isRead : Bool) (a : BitVec 4) (p m d : Word) :
    decode (q120Record isRead st a p m d) = .ok
      (if st.toNat = 4 then (if isRead then .lread a p m d else .lwrite a p m d)
      else if isRead then .brd (st.setWidth 2) a p m d else .bwr (st.setWidth 2) a p m d) := by
  rw [q120_decodes]
  by_cases h4 : st.toNat = 4
  · cases isRead <;> simp [h4]
  · have h3 : st.toNat ≤ 3 := by omega
    cases isRead <;> simp [h4, h3]

/-- The bytes of a word that fits the layout are those of the record of its fields. -/
theorem q120_bytesDown {w : Nat} (hhigh : w / 2 ^ 113 = 0) (haddr : w / 2 ^ 96 % 256 ≤ 0x0F) :
    (⟨.q120, bytesDown 15 w⟩ : OpRecord) =
      q120Record (decide (w / 2 ^ 112 % 2 ≠ 0)) (BitVec.ofNat 8 (w / 2 ^ 104)) (BitVec.ofNat 4 (w / 2 ^ 96 % 256))
        (BitVec.ofNat 32 (w / 2 ^ 64)) (BitVec.ofNat 32 (w / 2 ^ 32)) (BitVec.ofNat 32 w) := by
  have hflavor : BitVec.ofNat 8 (w / 2 ^ 112) = if decide (w / 2 ^ 112 % 2 ≠ 0) then 1 else 0 := by
    obtain h | h : w / 2 ^ 112 = 0 ∨ w / 2 ^ 112 = 1 := by omega
    all_goals rw [h]; rfl
  have haddress : BitVec.ofNat 8 (w / 2 ^ 96) = (BitVec.ofNat 4 (w / 2 ^ 96 % 256)).setWidth 8 := by
    apply BitVec.eq_of_toNat_eq
    simp only [BitVec.toNat_ofNat, BitVec.toNat_setWidth]
    omega
  rw [bytesDown_fifteen, q120Record, hflavor, haddress]

/-- Settles O3: a field out of range is refused; else the word's bytes are the record of its fields. -/
theorem transactionWords : Obligations.TransactionWords := by
  intro w hw isRead state address a payload mask delay
  have hstate : (BitVec.ofNat 8 (w / 2 ^ 104)).toNat = state := rfl
  rw [decodeTableWord_120 hw]
  refine ⟨fun hout => ?refused, fun hhigh hst haddr => ?transaction⟩
  case refused =>
    have hbytes : 1 < (BitVec.ofNat 8 (w / 2 ^ 112)).toNat ∨ 4 < (BitVec.ofNat 8 (w / 2 ^ 104)).toNat ∨
        0x0F < (BitVec.ofNat 8 (w / 2 ^ 96)).toNat := by
      simp only [BitVec.toNat_ofNat]
      omega
    rw [bytesDown_fifteen, decode, decodeQ120_refuses hbytes]
    rfl
  case transaction =>
    have hstep : (BitVec.ofNat 8 (w / 2 ^ 104)).setWidth 2 = BitVec.ofNat 2 state := by
      apply BitVec.eq_of_toNat_eq
      simp only [BitVec.toNat_ofNat, BitVec.toNat_setWidth, state]
    rw [q120_bytesDown hhigh haddr, q120_decodes_of_state_le (hstate ▸ hst), hstate, hstep]
    simp only [decide_eq_true_eq, ne_eq, ite_not]
    rfl

/-! ### The selector word of a state (30_encoding.md R108) -/

/-- The highest bit that is set names the case; bits below it may hold anything (30_encoding.md R108). -/
theorem decode_selectorWord : ∀ busy empty read full held : Bool,
    decode ⟨.edge, [(BitVec.ofBool busy ++ BitVec.ofBool empty ++ BitVec.ofBool read ++ BitVec.ofBool full ++
      BitVec.ofBool held).setWidth 8]⟩ =
    .ok (if busy then .edgeBusy else if empty then .edgeIdle else if read then .edgeRd else if full then .edgeWfull
      else if held then .edgeWcommit else .edgeWstage) := by
  decide

/-- Settles O5, along the decision tree of 41_edge_sequencer.md R150. -/
theorem selectorNamesTheCase : Obligations.SelectorNamesTheCase := by
  intro s
  rw [State.selector, decode_selectorWord]
  by_cases hcycle : 0 < s.cycle
  · simp [busCase_busy hcycle, hcycle, BusCase.instr]
  have hzero : s.cycle = 0 := by simpa using hcycle
  cases hq : s.pq with
  | nil => simp [busCase_idle hzero hq, hzero, BusCase.instr]
  | cons w rest =>
    cases hw : w.payload with
    | read d => simp [busCase_read hzero hq hw, hzero, isReadOf, hw, BusCase.instr]
    | write v =>
      simp only [busCase_write hzero hq hw]
      by_cases hfull : byteMask w = 255#8
      · simp [hzero, isReadOf, hw, hfull, BusCase.instr]
      · cases s.holdValid <;> simp [hzero, isReadOf, hw, hfull, BusCase.instr]

/-! ### Words of the test vectors -/

/-- Settles O4: closed words, each evaluated by the decoder. -/
theorem specWordsDecode : Obligations.SpecWordsDecode := by
  unfold Obligations.SpecWordsDecode
  decide

end Sys2Proof.Laws
end

section
/-! PROOFS. The Bus Transaction Queue: what joins LQ, what EXPAND makes of it, and where the page selects stand
(40_bus_queue.md R130 to R139). -/

namespace Sys2Proof.Machine

/-! ### The queue's operations -/

theorem exec_enqw (addr v m d : Word) (s : State) :
    exec (.enqw addr v m d) s = withAddress addr fun a => .next (s.enqw a v m d) := rfl

theorem exec_enqr (addr dest m d : Word) (s : State) :
    exec (.enqr addr dest m d) s =
      withAddress addr fun a => withAccumulator s dest fun k => .next (s.enqr a k m d) := rfl

theorem exec_pagesel (p : Word) (pm : Byte) (s : State) :
    exec (.pagesel p pm) s = withPage p fun q => .next (s.pageSel q pm) := rfl

theorem exec_pgwritem (p : Word) (pm : Byte) (r v m d : Word) (s : State) :
    exec (.pgwritem p pm r v m d) s =
      withPage p fun q => withAddress r fun a => .next (s.pgWriteM q pm a v m d) := rfl

/-- PGWRITE is PGWRITEM under the full page mask, for every operand (40_bus_queue.md R137). -/
theorem exec_pgwrite_eq_pgwritem (p r v m d : Word) (s : State) :
    exec (.pgwrite p r v m d) s = exec (.pgwritem p s.cfg.pmFull r v m d) s := rfl

theorem exec_lread (a : BitVec 4) (dest m d : Word) (s : State) :
    exec (.lread a dest m d) s =
      withAccumulator s dest fun k => .next (s.pushLQ ⟨.read k, a, m, d⟩).expand := rfl

/-! ### ENQW and ENQR -/

theorem enqw_of_skipWrites {s : State} (hskip : s.skipWrites = true) (a : BitVec 4) (v m d : Word) :
    s.enqw a v m d = s :=
  if_pos hskip

theorem enqw_of_not_skipWrites {s : State} (hskip : s.skipWrites = false) (a : BitVec 4) (v m d : Word) :
    s.enqw a v m d = { s with lq := s.lq ++ [⟨.write v, a, m, d⟩] } := by
  simp [State.enqw, State.pushLQ, hskip]

/-- Settles O15: a legal address with writes let through, the same with writes skipped, an address out of range. -/
theorem enqwQueuesOrSkips : Obligations.EnqwQueuesOrSkips := by
  intro value mask delay s
  refine ⟨fun a hskip => ?queued, fun a hskip => ?skipped, fun addr hout => ?refused⟩
  case queued => rw [exec_enqw, withAddress_setWidth, enqw_of_not_skipWrites hskip]
  case skipped => rw [exec_enqw, withAddress_setWidth, enqw_of_skipWrites hskip]
  case refused => rw [exec_enqw, withAddress_out hout]

/-- Settles O16: the address is examined first, then the accumulator; skipWrites is not asked. -/
theorem enqrQueuesAlways : Obligations.EnqrQueuesAlways := by
  intro dest mask delay s
  refine ⟨fun a hdest => ?queued, fun a hdest => ?noAccumulator, fun addr hout => ?noAddress⟩
  case queued => rw [exec_enqr, withAddress_setWidth, withAccumulator_in hdest]; rfl
  case noAccumulator => rw [exec_enqr, withAddress_setWidth, withAccumulator_out hdest]
  case noAddress => rw [exec_enqr, withAddress_out hout]

/-! ### EXPAND -/

theorem length_expandLT (w : LT) : (expandLT w).length = 4 := rfl

/-- The place of a physical transaction among the four is its step, and the last alone has the delay. -/
theorem expandLT_getElem? (w : LT) (j : BitVec 2) :
    (expandLT w)[j.toNat]? = some ⟨w.payload, j, w.address, w.mask, if j = 3 then w.delay else 0⟩ := by
  obtain rfl | rfl | rfl | rfl : j = 0 ∨ j = 1 ∨ j = 2 ∨ j = 3 := by revert j; decide
  all_goals rfl

theorem length_flatMap_expandLT (ws : List LT) : (ws.flatMap expandLT).length = 4 * ws.length := by
  induction ws with
  | nil => rfl
  | cons w ws ih => rw [List.flatMap_cons, List.length_append, length_expandLT, ih, List.length_cons]; omega

/-- The steps of the k-th logical transaction stand at the places 4k to 4k + 3. -/
theorem flatMap_expandLT_getElem? {ws : List LT} {k : Nat} {w : LT} (h : ws[k]? = some w) (j : BitVec 2) :
    (ws.flatMap expandLT)[4 * k + j.toNat]? =
      some ⟨w.payload, j, w.address, w.mask, if j = 3 then w.delay else 0⟩ := by
  have hj : j.toNat < 4 := j.isLt
  induction ws generalizing k with
  | nil => simp at h
  | cons x xs ih =>
    rw [List.flatMap_cons]
    cases k with
    | zero =>
      obtain rfl : x = w := by simpa using h
      rw [List.getElem?_append_left (by rw [length_expandLT]; omega), Nat.mul_zero, Nat.zero_add]
      exact expandLT_getElem? x j
    | succ k =>
      rw [List.getElem?_append_right (by rw [length_expandLT]; omega), length_expandLT,
        show 4 * (k + 1) + j.toNat - 4 = 4 * k + j.toNat by omega]
      exact ih (by simpa using h)

/-- Settles O17: the new part of PQ is LQ with each transaction in its four steps, behind what PQ held. -/
theorem expandFourSteps : Obligations.ExpandFourSteps := by
  intro s
  refine ⟨s.expand, rfl, rfl, rfl, ?count, ?ahead, fun k j w hw => ?places⟩
  case count => rw [expand_pq, List.length_append, length_flatMap_expandLT]
  case ahead => rw [expand_pq, List.take_left]
  case places =>
    rw [expand_pq, Nat.add_assoc, List.getElem?_append_right (Nat.le_add_right ..), Nat.add_sub_cancel_left]
    exact flatMap_expandLT_getElem? hw j

/-- Settles O21: the transaction joins LQ, and EXPAND drains LQ; only a read names an accumulator to examine. -/
theorem logicalRecordsJoin : Obligations.LogicalRecordsJoin := by
  intro a x mask delay s
  refine ⟨?write, fun hdest => ?read, fun hdest => ?refused⟩
  case write => rfl
  case read => rw [exec_lread, withAccumulator_in hdest]; rfl
  case refused => rw [exec_lread, withAccumulator_out hdest]

/-! ### Page selects and page-addressed writes -/

/-- PAGESEL, spelled out: nothing under skipWrites or on a page that agrees with the shadow under the mask; else the
shadow moves and one whole write of the page register is queued (40_bus_queue.md R135). -/
theorem pageSel_eq (s : State) (p pm : Byte) :
    s.pageSel p pm =
      if s.skipWrites = true then s
      else if p &&& pm = s.curPage &&& pm then s
      else { s with curPage := p, lq := s.lq ++ [⟨.write (p.setWidth 32), s.cfg.regPage, allBits, 0⟩] } := by
  by_cases hskip : s.skipWrites = true
  · simp [State.pageSel, hskip]
  · by_cases hagree : p &&& pm = s.curPage &&& pm
    · simp [State.pageSel, State.needsSwitch, hskip, hagree]
    · simp [State.pageSel, State.needsSwitch, State.enqw, State.pushLQ, hskip, hagree]

/-- A page widened through its byte is the page widened. -/
theorem setWidth_page (p : BitVec 7) : (p.setWidth 8).setWidth 32 = p.setWidth 32 :=
  BitVec.setWidth_setWidth (by decide)

/-- PGWRITEM of a legal page and register. -/
theorem exec_pgwritem_legal (p : BitVec 7) (pm : Byte) (r : BitVec 4) (v m d : Word) (s : State) :
    exec (.pgwritem (p.setWidth 32) pm (r.setWidth 32) v m d) s = .next (s.pgWriteM (p.setWidth 8) pm r v m d) := by
  rw [exec_pgwritem, withPage_setWidth, withAddress_setWidth]

/-- Settles O18: the three cases of `pageSel_eq` on a legal page, and a page out of range. -/
theorem pageselSwitches : Obligations.PageselSwitches := by
  intro pm s
  refine ⟨fun p hskip => ?skipped, fun p hskip hagree => ?agrees, fun p hskip hdiffer => ?differs,
    fun p hout => ?refused⟩
  case skipped => rw [exec_pagesel, withPage_setWidth, pageSel_eq, if_pos hskip]
  case agrees => rw [exec_pagesel, withPage_setWidth, pageSel_eq, if_neg (by simp [hskip]), if_pos hagree]
  case differs =>
    rw [exec_pagesel, withPage_setWidth, pageSel_eq, if_neg (by simp [hskip]), if_neg hdiffer, setWidth_page]
  case refused => rw [exec_pagesel, withPage_out hout]

/-- Settles O19: the three cases of `pgWriteM_eq` on legal operands, the page examined before the register. -/
theorem pageWriteResult : Obligations.PageWriteResult := by
  intro pm v m d s
  refine ⟨fun p r hskip => ?skipped, fun p r hskip hagree => ?agrees, fun p r hskip hdiffer => ?differs,
    fun p r hout => ?noPage, fun p r hp hout => ?noRegister, fun p r => ?fullMask, fun p r => ?answers⟩
  case skipped => rw [exec_pgwritem_legal, pgWriteM_eq, if_pos hskip]
  case agrees => rw [exec_pgwritem_legal, pgWriteM_eq, if_neg (by simp [hskip]), if_pos hagree]
  case differs => rw [exec_pgwritem_legal, pgWriteM_eq, if_neg (by simp [hskip]), if_neg hdiffer, setWidth_page]
  case noPage => rw [exec_pgwritem, withPage_out hout]
  case noRegister => rw [exec_pgwritem, withPage, if_pos hp, withAddress_out hout]
  case fullMask => exact exec_pgwrite_eq_pgwritem p r v m d s
  case answers =>
    have hwritem := exec_pgwritem_legal p s.cfg.pmFull r v m d s
    exact ⟨_, (exec_pgwrite_eq_pgwritem ..).trans hwritem, hwritem⟩

/-! ### Two page-addressed writes in a row -/

/-- What PGWRITEM adds to LQ: the page select exactly if the pages differ under the mask, and then the write. -/
theorem pgWriteM_lq {s : State} (hskip : s.skipWrites = false) (p pm : Byte) (r : BitVec 4) (v m d : Word) :
    (s.pgWriteM p pm r v m d).lq =
      s.lq ++ (if p &&& pm = s.curPage &&& pm then []
        else [⟨.write (p.setWidth 32), s.cfg.regPage, allBits, 0⟩]) ++ [⟨.write v, r, m, d⟩] := by
  rw [pgWriteM_eq, if_neg (by simp [hskip])]
  split <;> simp

/-- After PGWRITEM the shadow is its page, or agreed with it under its mask all along. -/
theorem pgWriteM_curPage {s : State} (hskip : s.skipWrites = false) (p pm : Byte) (r : BitVec 4) (v m d : Word) :
    (s.pgWriteM p pm r v m d).curPage = p ∨ (s.pgWriteM p pm r v m d).curPage &&& pm = p &&& pm := by
  rw [pgWriteM_eq, if_neg (by simp [hskip])]
  split
  case isTrue hagree => exact .inr hagree.symm
  case isFalse => exact .inl rfl

/-- Settles O20: the second write sees the shadow that the first leaves, and skipWrites stays clear between them. -/
theorem pageSwitchMinimal : Obligations.PageSwitchMinimal := by
  intro p1 p2 pm1 pm2 r1 r2 v1 m1 d1 v2 m2 d2 s hskip
  have hskip' : (s.pgWriteM (p1.setWidth 8) pm1 r1 v1 m1 d1).skipWrites = false :=
    (pgWriteM_skipWrites ..).trans hskip
  refine ⟨_, _, exec_pgwritem_legal .., exec_pgwritem_legal .., pgWriteM_curPage hskip .., ?lastWrite, ?second⟩
  case lastWrite => rw [pgWriteM_lq hskip, List.getLast?_concat]
  case second => rw [pgWriteM_lq hskip', pgWriteM_cfg, setWidth_page]

end Sys2Proof.Machine
end

section
/-! PROOFS. A logical read on the bus: four edges, each merging one byte of the register into the accumulator under
the mask (40_bus_queue.md R133, 41_edge_sequencer.md R153). -/

namespace Sys2Proof

/-! ### Bits under a mask -/

/-- The bits outside the mask are those of the old word. -/
theorem masked_or_unmasked_and_not (x y m : Word) : ((x &&& ~~~m) ||| (y &&& m)) &&& ~~~m = x &&& ~~~m := by
  ext k hk
  cases h : m[k] <;> simp [h]

namespace Machine

/-- Bit by bit, a merged byte takes its eight places under the mask, and the rest of the accumulator stays. -/
theorem mergeRead_getLsbD (x m : Word) (s : BitVec 2) (b : Byte) {k : Nat} (hk : k < 32) :
    (mergeRead x m s b).getLsbD k =
      if shiftOf s ≤ k ∧ k < shiftOf s + 8 ∧ m.getLsbD k = true then b.getLsbD (k - shiftOf s)
      else x.getLsbD k := by
  have hones : (0xFF#32).getLsbD (k - shiftOf s) = decide (k - shiftOf s < 8) := by
    rw [BitVec.getLsbD_ofNat, show 0xFF = 2 ^ 8 - 1 from rfl, Nat.testBit_two_pow_sub_one]
    grind
  have hfield : (0xFF#32 <<< shiftOf s).getLsbD k = decide (shiftOf s ≤ k ∧ k < shiftOf s + 8) := by
    rw [BitVec.getLsbD_shiftLeft, hones]
    grind
  have hbyte : (b.setWidth 32 <<< shiftOf s).getLsbD k = (decide (shiftOf s ≤ k) && b.getLsbD (k - shiftOf s)) := by
    rw [BitVec.getLsbD_shiftLeft, BitVec.getLsbD_setWidth]
    grind
  simp only [mergeRead, BitVec.getLsbD_or, BitVec.getLsbD_and, BitVec.getLsbD_not, hfield, hbyte]
  grind

/-- The four bytes of a read, merged one after another, are the word of them merged under the mask. -/
theorem mergeRead_bytes (x m : Word) (b0 b1 b2 b3 : Byte) :
    mergeRead (mergeRead (mergeRead (mergeRead x m 0 b0) m 1 b1) m 2 b2) m 3 b3 =
      (x &&& ~~~m) ||| (wordOfBytes b0 b1 b2 b3 &&& m) := by
  apply BitVec.eq_of_getLsbD_eq
  intro k hk
  simp only [mergeRead_getLsbD _ _ _ _ hk, wordOfBytes, BitVec.getLsbD_or, BitVec.getLsbD_and, BitVec.getLsbD_not,
    BitVec.getLsbD_append, shiftOf]
  grind

/-! ### The register's bytes in the pool -/

theorem busAddr_toNat (a : BitVec 4) (s : BitVec 2) : (busAddr a s).toNat = a.toNat * 4 + s.toNat := by
  revert a s; decide

/-- A register of the pool is made of the four bytes at its bus addresses. -/
theorem poolReg_eq (m : Memory) (page : BitVec 7) (a : BitVec 4) :
    poolReg m page.toNat a.toNat =
      wordOfBytes (m.read (poolAddr page (busAddr a 0))) (m.read (poolAddr page (busAddr a 1)))
        (m.read (poolAddr page (busAddr a 2))) (m.read (poolAddr page (busAddr a 3))) := by
  simp only [poolReg, poolAddr, busAddr_toNat, Nat.add_assoc]
  rfl

theorem hostByte_of_pool {s : State} (h : s.cfg.device = .pool) (a : BitVec 6) :
    s.hostByte a = s.pool.read (poolAddr s.devPage a) := by
  simp [State.hostByte, h]

/-! ### One edge of a read -/

/-- The read of `dest` begun in `s` has reached `t`: the accumulator holds `x`, PQ is down to `left`, and what no read
touches is as it was. -/
structure ReadReached (s t : State) (dest : Nat) (x : Word) (left : List PT) : Prop where
  acc : t.acc = s.acc.set dest x
  pq : t.pq = left
  lq : t.lq = s.lq
  ch : t.ch = s.ch
  cfg : t.cfg = s.cfg
  pool : t.pool = s.pool
  devPage : t.devPage = s.devPage
  holdValid : t.holdValid = s.holdValid

/-- Before its first edge the accumulator holds what it held. -/
theorem ReadReached.start {s : State} {dest : Nat} (hdest : dest < s.acc.length) :
    ReadReached s s dest (s.acc.getD dest 0) s.pq where
  acc := by simp [hdest]
  pq := rfl
  lq := rfl
  ch := rfl
  cfg := rfl
  pool := rfl
  devPage := rfl
  holdValid := rfl

theorem ReadReached.getD {s t : State} {dest : Nat} {x : Word} {left : List PT} (h : ReadReached s t dest x left)
    (hdest : dest < s.acc.length) : t.acc.getD dest 0 = x := by
  simp [h.acc, hdest]

theorem ReadReached.getD_ne {s t : State} {dest : Nat} {x : Word} {left : List PT} (h : ReadReached s t dest x left)
    {j : Nat} (hj : j ≠ dest) : t.acc.getD j 0 = s.acc.getD j 0 := by
  simp [h.acc, List.getD, List.getElem?_set_ne (Ne.symm hj)]

/-- One edge merges the byte of the front step; on the register pool that byte is the register's. The last step loads
the delay and marks a read as completed. -/
theorem ReadReached.edge {s t : State} {dest : Nat} {x : Word} {st : BitVec 2} {a : BitVec 4} {m d : Word}
    {rest : List PT} (h : ReadReached s t dest x (⟨.read dest, st, a, m, d⟩ :: rest)) (hdest : dest < s.acc.length)
    (hcycle : t.cycle = 0) (hread : t.wasRead = false) :
    ∃ (b : Byte) (u : State), exec .edge t = .next u ∧ ReadReached s u dest (mergeRead x m st b) rest ∧
      u.cycle = (if st = 3 then d.toNat else 0) ∧ u.wasRead = decide (st = 3) ∧
      (s.cfg.device = .pool → b = s.pool.read (poolAddr s.devPage (busAddr a st))) := by
  have hphase := busPhase_read hcycle h.pq rfl
  refine ⟨t.hostByte (busAddr a st), t.edgeStep, rfl, ?_⟩
  rw [State.edgeStep, irqService_noRead hread, hphase]
  refine ⟨?reached, rfl, ?completed, fun hpool => ?byte⟩
  case reached =>
    exact { h with
      acc := by rw [h.getD hdest, h.acc, List.set_set]; rfl
      pq := rfl }
  case completed => by_cases hlast : st = 3 <;> simp [hread, hlast]
  case byte => rw [hostByte_of_pool (by rw [h.cfg, hpool]), h.pool, h.devPage]

/-! ### The four edges -/

/-- Settles O33: four edges, a byte each, from the idle bus to the completed read. -/
theorem logicalReadOnBus : Obligations.LogicalReadOnBus := by
  intro s a dest m d rest hcycle hread hdest hpq
  have h0 := ReadReached.start hdest
  rw [hpq] at h0
  obtain ⟨b0, t1, e1, h1, hcycle1, hread1, hb0⟩ := h0.edge hdest hcycle hread
  obtain ⟨b1, t2, e2, h2, hcycle2, hread2, hb1⟩ := h1.edge hdest hcycle1 hread1
  obtain ⟨b2, t3, e3, h3, hcycle3, hread3, hb2⟩ := h2.edge hdest hcycle2 hread2
  obtain ⟨b3, t4, e4, h4, hcycle4, hread4, hb3⟩ := h3.edge hdest hcycle3 hread3
  have hrun : runAll (List.replicate 4 .edge) s = .next t4 :=
    (runAll_cons_next e1).trans ((runAll_cons_next e2).trans ((runAll_cons_next e3).trans (runAll_cons_next e4)))
  have hacc : t4.acc.getD dest 0 = (s.acc.getD dest 0 &&& ~~~m) ||| (wordOfBytes b0 b1 b2 b3 &&& m) :=
    (h4.getD hdest).trans (mergeRead_bytes ..)
  refine ⟨t4, hrun, h4.pq, hcycle4, hread4, h4.lq, h4.ch, h4.pool, h4.devPage, h4.holdValid, ?length,
    fun j hj => h4.getD_ne hj, ?unmasked, fun hpool => ?register⟩
  case length => rw [h4.acc, List.length_set]
  case unmasked => rw [hacc, masked_or_unmasked_and_not]
  case register => rw [hacc, poolReg_eq, hb0 hpool, hb1 hpool, hb2 hpool, hb3 hpool]

end Machine

end Sys2Proof
end

section
/-! PROOFS. What every operation is made of, as far as the queues, the device and the write log go: a few moves, each
said once. What every move keeps, every operation keeps. -/

namespace Sys2Proof.Machine

/-! ### The moves -/

/-- The state with all that neither the queues, the device nor the write log is concerned with put as after reset. -/
def State.busSide (s : State) : State :=
  { State.reset with
    lq := s.lq, pq := s.pq, cycle := s.cycle, holdValid := s.holdValid, acc := s.acc, curPage := s.curPage
    cfg := s.cfg, pool := s.pool, logEnable := s.logEnable, writeLog := s.writeLog, trace := s.trace }

/-- The state that RESET queues its two writes in (45_device_facade.md R290). -/
def State.cleared (s : State) : State :=
  { s with
    lq := [], pq := [], cycle := 0, wasRead := false, holdVal := 0, holdValid := false, irqLatched := false
    acc := (List.replicate s.acc.length 0).set s.cfg.accIrqv 0x00000080, ch := Bank.fill s.cfg.chanInit
    trace := s.trace ++ .reset :: (List.finRange 32).map fun i => .setMute i (s.muted.get i)
    curPage := 0, chanMax := s.initChanMax }

/-- One move of an operation. -/
inductive Move : State → State → Prop
  /-- nothing on the bus side changes -/
  | aside {s t : State} (h : t.busSide = s.busSide) : Move s t
  /-- writes join LQ -/
  | queues {s t : State} (h : QueuesOnly s t) : Move s t
  /-- a read joins LQ, into an accumulator that exists or, for IRQ_ASSERT, the vector's -/
  | queueRead (s : State) (a : BitVec 4) (d : Nat) (m dl : Word) (h : d < s.acc.length ∨ d = s.cfg.accIrqv) :
      Move s (s.enqr a d m dl)
  | expand (s : State) : Move s s.expand
  /-- a physical transaction presented as a record joins PQ (log 5) -/
  | joinPQ (s : State) (w : PT) (h : ∀ d, w.payload = .read d → d < s.acc.length) : Move s (s.pushPQ w)
  | busPhase (s : State) : Move s s.busPhase
  /-- a call of the device that writes nothing to it over the bus -/
  | call (s : State) (c : DevCall) (h : busWrites [c] = []) : Move s (s.note c)
  | clear (s : State) : Move s s.cleared

/-- Some moves, one after another. -/
abbrev Moves : State → State → Prop := Relation.ReflTransGen Move

theorem Moves.aside {s t : State} (h : t.busSide = s.busSide) : Moves s t := .single (.aside h)

theorem QueuesOnly.moves {s t : State} (h : QueuesOnly s t) : Moves s t := .single (.queues h)

theorem Moves.ite {s t u : State} {c : Prop} [Decidable c] (ht : Moves s t) (hu : Moves s u) :
    Moves s (if c then t else u) := by
  split
  · exact ht
  · exact hu

/-! ### Host operations and the sequencer -/

theorem pushLQ_write_queuesOnly (s : State) (a : BitVec 4) (v m d : Word) :
    QueuesOnly s (s.pushLQ ⟨.write v, a, m, d⟩) :=
  ⟨s.curPage, [_], rfl, id, by simp⟩

theorem resetOp_moves (s : State) : Moves s s.resetOp :=
  .trans (.single (.clear s))
    ((enqw_queuesOnly s.cleared ..).trans (pgWriteM_queuesOnly _ (p := 0) (by decide) ..)).moves

theorem setChannels_moves (s : State) (n : BitVec 5) : Moves s (s.setChannels n) :=
  .trans (Moves.aside (t := { s with initChanMax := n, chanMax := n }) rfl)
    (pgWriteM_queuesOnly _ (p := 0) (by decide) ..).moves

theorem rawWrites_moves (s : State) (ps : List (Word × Word)) : Moves s (s.rawWrites ps) :=
  List.foldlRecOn (motive := Moves s) ps _ .refl fun t ht _ _ => ht.trans (enqw_queuesOnly t ..).moves

theorem takeTick_moves (s : State) : Moves s s.takeTick := by
  rw [takeTick_eq]
  exact .trans (.single (.call s .tick rfl)) (Moves.aside rfl)

theorem irqService_moves (s : State) : Moves s s.irqService := by
  obtain ⟨a, b, h | ⟨c, u, hu, h⟩⟩ := irqService_cases s
  · exact h ▸ .aside rfl
  · have hflags : Moves s { s with wasRead := a, irqLatched := b } := .aside rfl
    exact h ▸ hflags.trans (hu.moves.trans (Moves.aside rfl))

theorem irqAssert_moves (s : State) : Moves s s.irqAssert :=
  .trans (Moves.aside (t := { s with irqLatched := true }) rfl) (.single (.queueRead _ _ _ _ _ (.inr rfl)))

theorem edgeStep_moves (s : State) : Moves s s.edgeStep := (irqService_moves s).trans (.single (.busPhase _))

theorem selectedCase_moves (s : State) (c : BusCase) : Moves s (s.selectedCase c) := .ite (.single (.busPhase s)) .refl

theorem devEvent_moves (s : State) (e : DevEvent) : Moves s (s.devEvent e) := by
  cases e with
  | risingEdge => exact edgeStep_moves s
  | irq => exact irqAssert_moves s

theorem devEvents_moves (s : State) (es : List DevEvent) : Moves s (es.foldl State.devEvent s) :=
  List.foldlRecOn (motive := Moves s) es _ .refl fun t ht e _ => ht.trans (devEvent_moves t e)

theorem sample_moves (s : State) (k : Nat) : Moves s (s.sample k) :=
  .trans (.single (.expand s)) ((takeTick_moves _).trans ((devEvents_moves _ _).trans (Moves.aside rfl)))

theorem generateFrom_moves (s : State) (k n : Nat) : Moves s (s.generateFrom k n) := by
  induction n generalizing s k with
  | zero => exact .refl
  | succ n ih => exact (sample_moves s k).trans (ih (s.sample k) (k + 1))

/-! ### The translator -/

theorem Moves.writeA {s t : State} (h : Moves s t) (i : ChIx) (r : BitVec 4) (v : Word) : Moves s (t.writeA i r v) :=
  h.trans (writeA_queuesOnly t i r v).moves

theorem Moves.writeAIf {s t : State} (h : Moves s t) {c : Prop} [Decidable c] {i : ChIx} {r : BitVec 4} {v : Word} :
    Moves s (if c then t.writeA i r v else t) :=
  .ite (h.writeA i r v) h

theorem Moves.writeCrIf {s t : State} (h : Moves s t) {c : Prop} [Decidable c] {i : ChIx} {v m : Word} :
    Moves s (if c then t.writeCr i v m else t) :=
  .ite (h.trans (writeCr_queuesOnly t i v m).moves) h

theorem setChan_moves (s : State) (i : ChIx) (c : Chan) : Moves s (s.setChan i c) := .aside rfl

theorem modChan_moves (s : State) (i : ChIx) (f : Chan → Chan) : Moves s (s.modChan i f) := .aside rfl

theorem takeMacro_moves (s : State) (i : ChIx) (b : Bool) : Moves s (s.takeMacro i b) := by
  rw [takeMacro_eq]
  exact .aside rfl

theorem tVol_moves (s : State) (i : ChIx) : Moves s (s.tVol i) := by
  have hset c := setChan_moves s i c
  exact .ite (.ite (hset _) (((hset _).writeA ..).writeA ..)) .refl

theorem tFilt_moves (s : State) (i : ChIx) (m : MacroIn) : Moves s (s.tFilt i m) := by
  have hset c := setChan_moves s i c
  exact .ite (.ite (hset _) (hset _).writeCrIf.writeAIf.writeAIf) .refl

theorem tEnv_moves (s : State) (i : ChIx) : Moves s (s.tEnv i) := by
  have hset c := setChan_moves s i c
  exact .ite (.ite (hset _) (hset _).writeAIf.writeAIf.writeAIf.writeAIf.writeAIf) .refl

theorem tKeyon_moves (s : State) (i : ChIx) (m : MacroIn) : Moves s (s.tKeyon i m) :=
  have hwrites := (pageWrites_queuesOnly _ (keyOnWrites_pages s.cfg s.chanMax i m (s.chan i)) s).moves
  .ite (hwrites.trans (modChan_moves _ i _)) .refl

theorem tKeyoff_moves (s : State) (i : ChIx) : Moves s (s.tKeyoff i) := Moves.writeCrIf .refl

theorem tFreqw_moves (s : State) (i : ChIx) : Moves s (s.tFreqw i) := Moves.writeAIf .refl

theorem tFreq_moves (s : State) (i : ChIx) (m : MacroIn) : Moves s (s.tFreq i m) := by
  refine .ite ?_ .refl
  exact (modChan_moves s i _).trans ((tKeyon_moves _ i m).trans ((tKeyoff_moves _ i).trans
    ((tFreqw_moves _ i).trans (modChan_moves _ i _))))

theorem translateChannel_moves (s : State) (b : Bool) (i : ChIx) : Moves s (s.translateChannel b i) :=
  (takeMacro_moves s i b).trans ((modChan_moves _ i _).trans ((tVol_moves _ i).trans
    ((tFilt_moves _ i _).trans ((tEnv_moves _ i).trans (tFreq_moves _ i _)))))

theorem translatorPass_moves (s : State) (b : Bool) : Moves s (s.translatorPass b) :=
  List.foldlRecOn (motive := Moves s) (visitedChannels s.chanMax) _ .refl
    fun t ht i _ => ht.trans (translateChannel_moves t b i)

/-! ### Commands -/

theorem onChannel_moves {ch : Byte} {s t : State} {f : Chan → Chan} (h : onChannel ch s f = .next t) :
    Moves s t := by
  obtain ⟨i, _, rfl⟩ := onChannel_next h
  exact .aside rfl

theorem execPorta_moves {ch : Byte} {value value2 : Word} {s t : State} (h : execPorta ch value value2 s = .next t) :
    Moves s t := by
  obtain ⟨i, _, hnext⟩ := withChannel_next h
  cases hnext
  exact .aside rfl

theorem execSamplePos_moves {ch : Byte} {value : Word} {s t : State} (h : execSamplePos ch value s = .next t) :
    Moves s t := by
  obtain ⟨i, _, hnext⟩ := withChannel_next h
  cases hnext
  exact (Moves.ite (writeB_queuesOnly s i _ _).moves .refl).trans (Moves.aside rfl)

theorem execNopCmd_moves {cmd : Cmd} {s t : State} (h : execNopCmd cmd s = .next t) : Moves s t := by
  cases h
  exact .aside rfl

theorem execDispatch_moves {cmd : Cmd} {s t : State} (h : execDispatch cmd s = .next t) : Moves s t := by
  unfold execDispatch at h
  split at h
  case h_7 => exact execPorta_moves h
  case h_8 => exact execSamplePos_moves h
  case h_17 => exact execNopCmd_moves h
  all_goals exact onChannel_moves h

/-! ### Every operation -/

/-- Every operation but SETLOG, which alone changes whether the log is kept, is made of moves. -/
theorem exec_moves {i : Instr} {s t : State} (h : exec i s = .next t) (hlog : ∀ b, i ≠ .setlog b) : Moves s t := by
  cases i
  -- host operations
  case setlog b => exact absurd rfl (hlog b)
  case reset => cases h; exact resetOp_moves s
  case generate offset length =>
    cases h
    exact .trans (Moves.aside (t := { s with samples := [] }) rfl) (generateFrom_moves _ offset.toNat length.toNat)
  case tick b => cases h; exact translatorPass_moves s b
  case dispatch => exact execDispatch_moves h
  case setchan n => cases h; exact setChannels_moves s _
  case mute index b =>
    simp only [exec, execMute] at h
    split at h
    · cases h; exact .trans (.single (.call s (.setMute _ b) rfl)) (Moves.aside rfl)
    · cases h
  case rawwrite =>
    simp only [exec, execRawwrite] at h
    obtain ⟨_, hnext⟩ := withAddress_next h
    cases hnext; exact (enqw_queuesOnly s ..).moves
  case rawbatch pairs =>
    simp only [exec, execRawbatch] at h
    split at h
    · cases h; exact rawWrites_moves s pairs
    · cases h
  case resync | snapshot | effectname | setskip => cases h; exact .aside rfl
  -- commands
  case porta => exact execPorta_moves h
  case samplePos => exact execSamplePos_moves h
  case nopCmd cmd => exact execNopCmd_moves (cmd := cmd) h
  case noteOn | noteOff | instrument | volume | panning | pitch | filterMode | filterK1 | filterK2 | envCount |
      envLvramp | envRvramp | envK1ramp | envK2ramp => exact onChannel_moves h
  -- transactions
  case lwrite => cases h; exact (pushLQ_write_queuesOnly s ..).moves.trans (.single (.expand _))
  case lread =>
    simp only [exec, execLread] at h
    obtain ⟨hdest, hnext⟩ := withAccumulator_next h
    cases hnext; exact .trans (.single (.queueRead s _ _ _ _ (.inl hdest))) (.single (.expand _))
  case bwr =>
    cases h; exact .trans (.single (.joinPQ s _ (by intro _ hread; cases hread))) (.single (.busPhase _))
  case brd =>
    simp only [exec, execBrd] at h
    obtain ⟨hdest, hnext⟩ := withAccumulator_next h
    cases hnext
    exact .trans (.single (.joinPQ s _ fun d hread => by cases hread; exact hdest)) (.single (.busPhase _))
  -- the edge and its cases
  case edge => cases h; exact edgeStep_moves s
  case edgeSvc => cases h; exact irqService_moves s
  case edgeBusy | edgeIdle | edgeRd | edgeWfull | edgeWstage | edgeWcommit => cases h; exact selectedCase_moves s _
  -- the translator's steps
  case tMacro => cases h; exact modChan_moves s _ _
  case tVol => cases h; exact tVol_moves s _
  case tFilt => cases h; exact tFilt_moves s _ _
  case tEnv => cases h; exact tEnv_moves s _
  case tFreq => cases h; exact tFreq_moves s _ _
  case tKeyon => cases h; exact tKeyon_moves s _ _
  case tKeyoff => cases h; exact tKeyoff_moves s _
  case tFreqw => cases h; exact tFreqw_moves s _
  -- the queue
  case enqw =>
    simp only [exec, execEnqw] at h
    obtain ⟨_, hnext⟩ := withAddress_next h
    cases hnext; exact (enqw_queuesOnly s ..).moves
  case enqr =>
    simp only [exec, execEnqr] at h
    obtain ⟨_, haddr⟩ := withAddress_next h
    obtain ⟨hdest, hnext⟩ := withAccumulator_next haddr
    cases hnext; exact .single (.queueRead s _ _ _ _ (.inl hdest))
  case expand => cases h; exact .single (.expand s)
  case pagesel =>
    simp only [exec, execPagesel] at h
    obtain ⟨hp, hnext⟩ := withPage_next h
    cases hnext; exact (pageSel_queuesOnly s (by simpa using by omega) _).moves
  case pgwritem =>
    simp only [exec, execPgwritem] at h
    obtain ⟨hp, hpage⟩ := withPage_next h
    obtain ⟨_, hnext⟩ := withAddress_next hpage
    cases hnext; exact (pgWriteM_queuesOnly s (by simpa using by omega) ..).moves
  case pgwrite =>
    simp only [exec, execPgwrite] at h
    obtain ⟨hp, hpage⟩ := withPage_next h
    obtain ⟨_, hnext⟩ := withAddress_next hpage
    cases hnext; exact (pgWriteM_queuesOnly s (by simpa using by omega) ..).moves
  case irqAssert => cases h; exact irqAssert_moves s

end Sys2Proof.Machine
end

section
/-! PROOFS. The invariant of the machine and the write log, over every operation (41_edge_sequencer.md R159, R161,
10_state.md R34, 20_memory.md R70, 40_bus_queue.md R131): each move keeps the one and mirrors the bus in the other. -/

namespace Sys2Proof.Machine

/-! ### Parts of the invariant -/

/-- What is staged stays the front transaction's while PQ only grows behind. -/
theorem holdInv_of_pq_grows {s t : State} (hs : s.holdInv) (hpq : s.pq <+: t.pq) (hcycle : t.cycle = s.cycle)
    (hvalid : t.holdValid = s.holdValid) : t.holdInv := by
  intro hv
  obtain ⟨hzero, w, rest, v, hq, hw, hm⟩ := hs (hvalid.symm.trans hv)
  obtain ⟨more, hmore⟩ := hpq
  exact ⟨hcycle.trans hzero, w, rest ++ more, v, by rw [← hmore, hq, List.cons_append], hw, hm⟩

/-- The reads of both queues name accumulators where each transaction was queued before or does so itself. -/
theorem destInv_of_mem {s t : State} (hs : s.destInv) (hacc : t.acc.length = s.acc.length)
    (hlq : ∀ w ∈ t.lq, w ∈ s.lq ∨ ∀ d, w.payload = .read d → d < s.acc.length)
    (hpq : ∀ w ∈ t.pq, w ∈ s.pq ∨ ∀ d, w.payload = .read d → d < s.acc.length) : t.destInv := by
  obtain ⟨hl, hp⟩ := hs
  rw [State.destInv, hacc]
  exact ⟨fun w hw => (hlq w hw).elim (hl w) id, fun w hw => (hpq w hw).elim (hp w) id⟩

theorem cfgInv_of_eq {s t : State} (hs : s.cfgInv) (hcfg : t.cfg = s.cfg) (hacc : t.acc.length = s.acc.length) :
    t.cfgInv := by
  rw [State.cfgInv, hcfg, hacc]
  exact hs

theorem payload_of_mem_expandLT {w : LT} {x : PT} (h : x ∈ expandLT w) : x.payload = w.payload := by
  simp only [expandLT, List.mem_cons, List.not_mem_nil, or_false] at h
  obtain rfl | rfl | rfl | rfl := h <;> rfl

/-! ### The bus phase -/

/-- A bus phase leaves the pool or writes one byte of it. -/
theorem busPhase_pool (s : State) :
    s.busPhase.pool = s.pool ∨ ∃ a b, s.busPhase.pool = Memory.write s.pool (poolAddr s.devPage a) b := by
  obtain ⟨_, h⟩ | ⟨_, _, h⟩ | ⟨w, rest, _, _, ⟨d, _, h⟩ | ⟨v, _, ⟨_, h⟩ | ⟨_, _, h⟩ | ⟨_, _, h⟩⟩⟩ :=
    busPhase_cases s <;> rw [h]
  · exact .inl rfl
  · exact .inl rfl
  · exact .inl rfl
  · exact .inr ⟨_, _, rfl⟩
  · exact .inr ⟨_, _, rfl⟩
  · exact .inl rfl

/-- A bus phase leaves LQ and the shadow page, and takes at most the front of PQ. -/
theorem busPhase_queues (s : State) :
    s.busPhase.lq = s.lq ∧ s.busPhase.curPage = s.curPage ∧ s.busPhase.pq <:+ s.pq := by
  obtain ⟨_, h⟩ | ⟨_, _, h⟩ | ⟨w, rest, _, hq, ⟨d, _, h⟩ | ⟨v, _, ⟨_, h⟩ | ⟨_, _, h⟩ | ⟨_, _, h⟩⟩⟩ :=
    busPhase_cases s <;> rw [h]
  · exact ⟨rfl, rfl, List.suffix_rfl⟩
  · exact ⟨rfl, rfl, List.suffix_rfl⟩
  · exact ⟨rfl, rfl, hq ▸ List.suffix_cons w rest⟩
  · exact ⟨rfl, rfl, hq ▸ List.suffix_cons w rest⟩
  · exact ⟨rfl, rfl, hq ▸ List.suffix_cons w rest⟩
  · exact ⟨rfl, rfl, List.suffix_rfl⟩

theorem busPhase_cfg_acc (s : State) : s.busPhase.cfg = s.cfg ∧ s.busPhase.acc.length = s.acc.length := by
  obtain ⟨acc, pool, hlen, h⟩ := busPhase_busChanges s
  exact ⟨congrArg Watched.cfg h, (congrArg (·.acc.length) h).trans hlen⟩

theorem busPhase_inv {s : State} (hs : s.inv) : s.busPhase.inv := by
  obtain ⟨hhold, hpage, hwf, hrange, hdest, hcfg⟩ := hs
  obtain ⟨hlq, hcur, hpq⟩ := busPhase_queues s
  obtain ⟨hcfgEq, hacc⟩ := busPhase_cfg_acc s
  have hpool : Memory.wf s.busPhase.pool = true ∧ ∀ c ∈ s.busPhase.pool, c.1 < 8192 := by
    obtain h | ⟨a, b, h⟩ := busPhase_pool s <;> rw [h]
    · exact ⟨hwf, hrange⟩
    · refine ⟨memory_write_wf hwf _ _, fun c hc => ?_⟩
      obtain rfl | hc := memory_mem_write hc
      · exact poolAddr_lt _ _
      · exact hrange c hc
  exact ⟨(busPhase_follows s hhold).1, hcur ▸ hpage, hpool.1, hpool.2,
    destInv_of_mem hdest hacc (fun w hw => .inl (hlq ▸ hw)) (fun w hw => .inl (hpq.subset hw)),
    cfgInv_of_eq hcfg hcfgEq hacc⟩

/-! ### Every move keeps the invariant -/

/-- The invariant speaks of the bus side alone. -/
theorem inv_congr {s t : State} (h : t.busSide = s.busSide) : t.inv ↔ s.inv := by
  change t.busSide.inv ↔ s.busSide.inv
  rw [h]

theorem QueuesOnly.inv {s t : State} (h : QueuesOnly s t) (hs : s.inv) : t.inv := by
  obtain ⟨p, ws, rfl, hp, hws⟩ := h
  obtain ⟨hhold, hpage, hwf, hrange, hdest, hcfg⟩ := hs
  refine ⟨hhold, hp hpage, hwf, hrange, destInv_of_mem hdest rfl (fun w hw => ?_) (fun w hw => .inl hw), hcfg⟩
  refine (List.mem_append.1 hw).imp_right fun hnew d hread => ?_
  obtain ⟨v, hwrite⟩ := hws w hnew
  cases hwrite.symm.trans hread

theorem enqr_inv {s : State} (hs : s.inv) (a : BitVec 4) {d : Nat} (m dl : Word) (hd : d < s.acc.length) :
    (s.enqr a d m dl).inv := by
  obtain ⟨hhold, hpage, hwf, hrange, hdest, hcfg⟩ := hs
  refine ⟨hhold, hpage, hwf, hrange, destInv_of_mem hdest rfl (fun w hw => ?_) (fun w hw => .inl hw), hcfg⟩
  refine (List.mem_append.1 hw).imp_right fun hnew e hread => ?_
  obtain rfl := List.mem_singleton.1 hnew
  cases hread
  exact hd

theorem expand_inv {s : State} (hs : s.inv) : s.expand.inv := by
  obtain ⟨hhold, hpage, hwf, hrange, hdest, hcfg⟩ := hs
  refine ⟨holdInv_of_pq_grows hhold ⟨_, rfl⟩ rfl rfl, hpage, hwf, hrange,
    destInv_of_mem hdest rfl (fun w hw => nomatch hw) (fun w hw => ?_), hcfg⟩
  refine (List.mem_append.1 hw).imp_right fun hnew d hread => ?_
  obtain ⟨l, hl, hmem⟩ := List.mem_flatMap.1 hnew
  exact hdest.1 l hl d (payload_of_mem_expandLT hmem ▸ hread)

theorem pushPQ_inv {s : State} (hs : s.inv) {w : PT} (hd : ∀ d, w.payload = .read d → d < s.acc.length) :
    (s.pushPQ w).inv := by
  obtain ⟨hhold, hpage, hwf, hrange, hdest, hcfg⟩ := hs
  refine ⟨holdInv_of_pq_grows hhold ⟨_, rfl⟩ rfl rfl, hpage, hwf, hrange,
    destInv_of_mem hdest rfl (fun x hx => .inl hx) (fun x hx => ?_), hcfg⟩
  refine (List.mem_append.1 hx).imp_right fun hnew => ?_
  obtain rfl := List.mem_singleton.1 hnew
  exact hd

theorem cleared_inv {s : State} (hs : s.inv) : s.cleared.inv := by
  obtain ⟨_, _, hwf, hrange, hdest, hcfg⟩ := hs
  have hacc : s.cleared.acc.length = s.acc.length := by simp [State.cleared]
  exact ⟨holdInv_of_not_holdValid rfl, Nat.zero_le _, hwf, hrange,
    destInv_of_mem hdest hacc (fun w hw => nomatch hw) (fun w hw => nomatch hw), cfgInv_of_eq hcfg rfl hacc⟩

theorem Move.inv {s t : State} (h : Move s t) (hs : s.inv) : t.inv := by
  cases h with
  | aside h => exact (inv_congr h).2 hs
  | queues h => exact h.inv hs
  | queueRead a d m dl h =>
    have ⟨_, _, _, _, _, hvector, _⟩ := hs
    exact enqr_inv hs a m dl (h.elim id fun hd => hd ▸ hvector)
  | expand => exact expand_inv hs
  | joinPQ w h => exact pushPQ_inv hs h
  | busPhase => exact busPhase_inv hs
  | call c _ => exact hs
  | clear => exact cleared_inv hs

theorem Moves.inv {s t : State} (h : Moves s t) (hs : s.inv) : t.inv := by
  induction h with
  | refl => exact hs
  | tail _ hmove ih => exact hmove.inv ih

/-- Every operation keeps the invariant. -/
theorem exec_inv {i : Instr} {s t : State} (h : exec i s = .next t) (hs : s.inv) : t.inv := by
  by_cases hlog : ∃ b, i = .setlog b
  · obtain ⟨b, rfl⟩ := hlog
    cases h
    exact hs
  · exact Moves.inv (exec_moves h fun b hb => hlog ⟨b, hb⟩) hs

/-- Settles O8: with nothing presented the state stays; else the record is taken, and its operation keeps the
invariant. -/
theorem stepKeepsInv : Obligations.StepKeepsInv := by
  intro s t hs hstep
  cases hport : s.port with
  | nil =>
    rw [step_of_port_nil hport] at hstep
    cases hstep
    exact hs
  | cons p rest =>
    cases hdecode : decode p.record with
    | ok i =>
      rw [step_of_decode_ok hport hdecode] at hstep
      exact exec_inv hstep hs
    | error why =>
      rw [step_of_decode_error hport hdecode] at hstep
      cases hstep

/-- The two transactions queued after reset are writes. -/
theorem reset_destInv : State.reset.destInv := by
  refine ⟨fun w hw d hread => ?_, fun w hw => nomatch hw⟩
  simp only [State.reset, List.mem_cons, List.not_mem_nil, or_false] at hw
  obtain rfl | rfl := hw <;> cases hread

/-- Settles O9: nothing is staged, the pool is empty, no read is queued, and the configuration is the default. -/
theorem resetHasInv : Obligations.ResetHasInv :=
  ⟨holdInv_of_not_holdValid rfl, Nat.zero_le _, rfl, fun _ hc => (nomatch hc), reset_destInv,
    Nat.zero_lt_one, rfl, rfl, rfl, rfl, rfl, rfl, rfl⟩

/-! ### The write log mirrors the bus -/

theorem busWrites_append (xs ys : List DevCall) : busWrites (xs ++ ys) = busWrites xs ++ busWrites ys :=
  List.filterMap_append

/-- Whether the log is kept stays, and the log grows by the bus writes made if it is kept (41_edge_sequencer.md
R161). -/
def MirrorsBus (s t : State) : Prop :=
  t.logEnable = s.logEnable ∧ ∃ calls : List DevCall, t.trace = s.trace ++ calls ∧
    t.writeLog = s.writeLog ++ (if s.logEnable then busWrites calls else [])

theorem MirrorsBus.trans {s t u : State} (h : MirrorsBus s t) (h' : MirrorsBus t u) : MirrorsBus s u := by
  obtain ⟨hlog, calls, htrace, hwrites⟩ := h
  obtain ⟨hlog', calls', htrace', hwrites'⟩ := h'
  refine ⟨hlog'.trans hlog, calls ++ calls', by rw [htrace', htrace, List.append_assoc], ?_⟩
  rw [hwrites', hwrites, hlog, List.append_assoc, busWrites_append]
  cases s.logEnable <;> rfl

/-- Calls that write nothing over the bus, and an unchanged log. -/
theorem MirrorsBus.of_noWrites {s t : State} {calls : List DevCall} (hlog : t.logEnable = s.logEnable)
    (htrace : t.trace = s.trace ++ calls) (hnone : busWrites calls = []) (hwrites : t.writeLog = s.writeLog) :
    MirrorsBus s t :=
  ⟨hlog, calls, htrace, by simp [hnone, hwrites]⟩

theorem MirrorsBus.of_noCalls {s t : State} (hlog : t.logEnable = s.logEnable) (htrace : t.trace = s.trace)
    (hwrites : t.writeLog = s.writeLog) : MirrorsBus s t :=
  .of_noWrites (calls := []) hlog (by rw [htrace, List.append_nil]) rfl hwrites

theorem committed_mirrors (s : State) (w : PT) (rest : List PT) (b : Byte) : MirrorsBus s (s.committed w rest b) := by
  refine ⟨rfl, [.bus ⟨s.edgeNo, true, ptAddr w, b⟩], rfl, ?_⟩
  cases h : s.logEnable <;> simp [State.committed, busWrites, h]

theorem busPhase_mirrors (s : State) : MirrorsBus s s.busPhase := by
  obtain ⟨_, h⟩ | ⟨_, _, h⟩ | ⟨w, rest, _, _, ⟨d, _, h⟩ | ⟨v, _, ⟨_, h⟩ | ⟨_, _, h⟩ | ⟨_, _, h⟩⟩⟩ :=
    busPhase_cases s <;> rw [h]
  · exact .of_noCalls rfl rfl rfl
  · exact .of_noCalls rfl rfl rfl
  · exact .of_noWrites rfl rfl rfl rfl
  · exact committed_mirrors s w rest _
  · exact committed_mirrors s w rest _
  · exact .of_noWrites rfl rfl rfl rfl

/-- The calls that RESET makes (45_device_facade.md R290) write nothing over the bus. -/
theorem busWrites_resetCalls (muted : Bank Bool) (is : List ChIx) :
    busWrites (.reset :: is.map fun i => .setMute i (muted.get i)) = [] := by
  simp [busWrites]

theorem Move.mirrors {s t : State} (h : Move s t) : MirrorsBus s t := by
  cases h with
  | aside h =>
    have hfield {α : Type} (f : State → α) : f t.busSide = f s.busSide := congrArg f h
    exact .of_noCalls (hfield State.logEnable) (hfield State.trace) (hfield State.writeLog)
  | queues h =>
    obtain ⟨p, ws, rfl, _, _⟩ := h
    exact .of_noCalls rfl rfl rfl
  | queueRead | expand | joinPQ => exact .of_noCalls rfl rfl rfl
  | busPhase => exact busPhase_mirrors s
  | call c hnone => exact .of_noWrites rfl rfl hnone rfl
  | clear => exact .of_noWrites rfl rfl (busWrites_resetCalls ..) rfl

theorem Moves.mirrors {s t : State} (h : Moves s t) : MirrorsBus s t := by
  induction h with
  | refl => exact .of_noCalls rfl rfl rfl
  | tail _ hmove ih => exact ih.trans hmove.mirrors

/-- Settles O11: SETLOG calls nothing and logs nothing; every other operation is made of moves. -/
theorem writeLogMirrorsBus : Obligations.WriteLogMirrorsBus := by
  intro i s t h
  by_cases hlog : ∃ b, i = .setlog b
  · obtain ⟨b, rfl⟩ := hlog
    cases h
    exact ⟨[], (List.append_nil _).symm, by cases s.logEnable <;> exact (List.append_nil _).symm⟩
  · exact (Moves.mirrors (exec_moves h fun b hb => hlog ⟨b, hb⟩)).2

end Sys2Proof.Machine
end

section
/-! PROOFS. The edge: its service phase, the case its state selects, and what each case does (41_edge_sequencer.md
R150 to R157). -/

namespace Sys2Proof.Machine

/-! ### A case as an operation -/

theorem exec_busCase (c : BusCase) (s : State) : exec c.instr s = .next (s.selectedCase c) := by
  cases c <;> rfl

/-- The case that the state selects is the bus phase. -/
theorem exec_of_busCase {s : State} {c : BusCase} (h : s.busCase = c) : exec c.instr s = .next s.busPhase := by
  rw [exec_busCase, State.selectedCase, if_pos h]

theorem exec_of_busCase_ne {s : State} {c : BusCase} (h : s.busCase ≠ c) : exec c.instr s = .next s := by
  rw [exec_busCase, State.selectedCase, if_neg h]

theorem busCase_full {s : State} {w : PT} {rest : List PT} {v : Word} (h : s.cycle = 0) (hq : s.pq = w :: rest)
    (hw : w.payload = .write v) (hm : byteMask w = 0xFF) : s.busCase = .wfull := by
  rw [busCase_write h hq hw, if_pos hm]

theorem busCase_commit {s : State} {w : PT} {rest : List PT} {v : Word} (h : s.cycle = 0) (hq : s.pq = w :: rest)
    (hw : w.payload = .write v) (hm : byteMask w ≠ 0xFF) (hv : s.holdValid = true) : s.busCase = .wcommit := by
  rw [busCase_write h hq hw, if_neg hm, if_pos hv]

theorem busCase_stage {s : State} {w : PT} {rest : List PT} {v : Word} (h : s.cycle = 0) (hq : s.pq = w :: rest)
    (hw : w.payload = .write v) (hm : byteMask w ≠ 0xFF) (hv : s.holdValid = false) : s.busCase = .wstage := by
  rw [busCase_write h hq hw, if_neg hm, if_neg (by simp [hv])]

/-! ### Each case alone -/

/-- Settles O24: the bus phase of a read. -/
theorem edgeRdMerges : Obligations.EdgeRdMerges := by
  intro s w dest rest hc hq hw
  exact (exec_of_busCase (busCase_read hc hq hw)).trans (congrArg _ (busPhase_read hc hq hw))

/-- Settles O25: the front byte is committed as it is, and the pool is read back after one write. -/
theorem edgeWfullWrites : Obligations.EdgeWfullWrites := by
  intro s w v rest hc hq hw hm
  exact ⟨(exec_of_busCase (busCase_full hc hq hw hm)).trans (congrArg _ (busPhase_full hc hq hw hm)),
    fun hwf x => memory_wf_read_write hwf _ _ x⟩

/-- Settles O26: the bus phase that stages a partial byte. -/
theorem edgeWstageReads : Obligations.EdgeWstageReads := by
  intro s w v rest hc hq hw hm hv
  exact (exec_of_busCase (busCase_stage hc hq hw hm hv)).trans (congrArg _ (busPhase_stage hc hq hw hm hv))

/-- Settles O27: the staged byte is committed, and the pool is read back after one write. -/
theorem edgeWcommitWrites : Obligations.EdgeWcommitWrites := by
  intro s w v rest hc hq hw hm hv
  exact ⟨(exec_of_busCase (busCase_commit hc hq hw hm hv)).trans (congrArg _ (busPhase_commit hc hq hw hm hv)),
    fun hwf x => memory_wf_read_write hwf _ _ x⟩

/-- Settles O34: a case that is not selected, and the three sub-steps of step 5 where their conditions fail. -/
theorem unselectedDoesNothing : Obligations.UnselectedDoesNothing := by
  intro s
  refine ⟨fun c hc => exec_of_busCase_ne hc, fun i m => ⟨fun h => ?keyon, fun h => ?keyoff, fun h => ?freqw⟩⟩
  case keyon =>
    have hdue : Chan.keyOnDue (s.chan i) = false := by
      obtain h | h := h <;> simp [Chan.keyOnDue, h]
    exact congrArg _ (if_neg (by simp [hdue]))
  case keyoff => exact congrArg _ (if_neg (by simp [h]))
  case freqw =>
    have hoff : (!(s.chan i).keyOn && !(s.chan i).keyOff && (s.chan i).active) = false := by
      obtain h | h | h := h <;> simp [h]
    exact congrArg _ (if_neg (by simp [hoff]))

/-! ### Transactions presented as records -/

theorem exec_bwr (st : BitVec 2) (a : BitVec 4) (x m d : Word) (s : State) :
    exec (.bwr st a x m d) s = .next (s.pushPQ ⟨.write x, st, a, m, d⟩).busPhase := rfl

theorem exec_brd (st : BitVec 2) (a : BitVec 4) (dest m d : Word) (s : State) :
    exec (.brd st a dest m d) s =
      withAccumulator s dest fun k => .next (s.pushPQ ⟨.read k, st, a, m, d⟩).busPhase := rfl

/-- On an empty PQ the transaction that joins is the front one. -/
theorem pushPQ_front {s : State} (hq : s.pq = []) (w : PT) : (s.pushPQ w).pq = w :: [] := by
  rw [pushPQ_pq, hq, List.nil_append]

/-- Settles O22: the record joins PQ and the case then selected runs; on an empty PQ that is its own case. -/
theorem physicalRecordsJoin : Obligations.PhysicalRecordsJoin := by
  intro st a x mask delay s
  refine ⟨⟨⟨_, exec_bwr .., exec_of_busCase rfl⟩, fun hc hq hm => ?full, fun hc hq hm hv => ?stage⟩,
    fun hdest => ⟨⟨_, ?read, exec_of_busCase rfl⟩, fun hc hq => ?readAlone⟩, fun hout => ?refused⟩
  case full =>
    have hfront := pushPQ_front hq ⟨.write x, st, a, mask, delay⟩
    exact (exec_of_busCase (s := s.pushPQ _) (busCase_full hc hfront rfl hm)).symm
  case stage =>
    have hfront := pushPQ_front hq ⟨.write x, st, a, mask, delay⟩
    exact (exec_of_busCase (s := s.pushPQ _) (busCase_stage hc hfront rfl hm hv)).symm
  case read => rw [exec_brd, withAccumulator_in hdest]; rfl
  case readAlone =>
    rw [exec_brd, withAccumulator_in hdest]
    exact (exec_of_busCase (s := s.pushPQ _) (busCase_read hc (pushPQ_front hq _) rfl)).symm
  case refused => rw [exec_brd, withAccumulator_out hout]

/-! ### Busy edges -/

/-- Where no read was just completed, an edge is its bus phase. -/
theorem exec_edge_of_noRead {s : State} (h : s.wasRead = false) : exec .edge s = .next s.busPhase := by
  change Host.Outcome.next s.irqService.busPhase = _
  rw [irqService_noRead h]

/-- A delay of d costs d busy edges, by induction on the delay (41_edge_sequencer.md R152). -/
theorem runAll_busyEdges {s : State} (hread : s.wasRead = false) {d : Nat} (hd : s.cycle = d) :
    runAll (List.replicate d .edge) s = .next { s with cycle := 0, edgeNo := s.edgeNo + d } := by
  induction d generalizing s with
  | zero =>
    change Host.Outcome.next s = .next { s with cycle := 0 }
    rw [← hd]
  | succ d ih =>
    have hedge := exec_edge_of_noRead hread
    rw [busPhase_busy (by omega)] at hedge
    have hrest := ih (s := { s with cycle := s.cycle - 1, edgeNo := s.edgeNo + 1 }) hread (by simp [hd])
    rw [List.replicate_succ, runAll_cons_next hedge, hrest, Nat.add_comm d, ← Nat.add_assoc]

/-- Settles O23: one busy edge, d busy edges, one idle bus phase. -/
theorem busyAndIdle : Obligations.BusyAndIdle := by
  intro s
  refine ⟨fun hc => ?busy, fun hread d hd => runAll_busyEdges hread hd, fun hc hq => ?idle⟩
  case busy => exact (exec_of_busCase (busCase_busy hc)).trans (congrArg _ (busPhase_busy hc))
  case idle => exact (exec_of_busCase (busCase_idle hc hq)).trans (congrArg _ (busPhase_idle hc hq))

/-! ### The service phase, then one case -/

/-- The service phase does not call the device. -/
theorem irqService_trace (s : State) : s.irqService.trace = s.trace := by
  obtain ⟨a, b, h | ⟨c, u, ⟨p, ws, rfl, _, _⟩, h⟩⟩ := irqService_cases s
  · rw [h]
  · rw [h]; rfl

/-- A bus phase makes at most one call of the device. -/
theorem busPhase_trace (s : State) :
    ∃ calls : List DevCall, s.busPhase.trace = s.trace ++ calls ∧ calls.length ≤ 1 := by
  obtain ⟨_, h⟩ | ⟨_, _, h⟩ | ⟨w, rest, _, _, ⟨d, _, h⟩ | ⟨v, _, ⟨_, h⟩ | ⟨_, _, h⟩ | ⟨_, _, h⟩⟩⟩ :=
    busPhase_cases s <;> rw [h]
  · exact ⟨[], (List.append_nil _).symm, Nat.zero_le _⟩
  · exact ⟨[], (List.append_nil _).symm, Nat.zero_le _⟩
  · exact ⟨[_], rfl, Nat.le_refl _⟩
  · exact ⟨[_], rfl, Nat.le_refl _⟩
  · exact ⟨[_], rfl, Nat.le_refl _⟩
  · exact ⟨[_], rfl, Nat.le_refl _⟩

/-- Settles O28: EDGE is the bus phase of the serviced state, and the case it selects is that bus phase. -/
theorem edgeIsServiceThenCase : Obligations.EdgeIsServiceThenCase := by
  intro s
  refine ⟨s.irqService, s.irqService.busPhase, rfl, rfl, fun hc => exec_of_busCase (busCase_busy hc),
    fun hc hq => exec_of_busCase (busCase_idle hc hq),
    fun w rest hc hq => ⟨fun d hw => ?read, fun v hw => ⟨fun hm => ?full, fun hm hv => ?stage, fun hm hv => ?commit⟩⟩,
    irqService_trace s ▸ busPhase_trace s.irqService⟩
  case read => exact exec_of_busCase (busCase_read hc hq hw)
  case full => exact exec_of_busCase (busCase_full hc hq hw hm)
  case stage => exact exec_of_busCase (busCase_stage hc hq hw hm hv)
  case commit => exact exec_of_busCase (busCase_commit hc hq hw hm hv)

/-! ### The service phase, case by case -/

theorem exec_edgeSvc (s : State) : exec .edgeSvc s = .next s.irqService := rfl

theorem irqService_notLatched {s : State} (hread : s.wasRead = true) (hlatch : s.irqLatched = false) :
    s.irqService = { s with wasRead := false } := by
  simp [State.irqService, hread, hlatch]

/-- With a read completed under the latch both flags are cleared, and a vector with bit 7 clear that names a channel
with its flag pending flips that channel (41_edge_sequencer.md R151). -/
theorem irqService_latched {s : State} (hread : s.wasRead = true) (hlatch : s.irqLatched = true) :
    s.irqService =
      if s.irqVector.getLsbD 7 = false ∧ (s.chan (vectorChannel s.irqVector)).isReverseLoop = true then
        { s with wasRead := false, irqLatched := false }.reverseFlip (vectorChannel s.irqVector)
      else { s with wasRead := false, irqLatched := false } := by
  cases hnone : s.irqVector.getLsbD 7 <;>
    cases hpending : (s.chan (vectorChannel s.irqVector)).isReverseLoop <;>
    simp only [State.irqService, hread, hlatch, hnone, hpending, if_true, if_false, Bool.false_eq_true, true_and,
      false_and, and_self, reduceCtorEq]

theorem revFlip_specDefault {c : Cfg} (h : c.revFlipFn = .specDefault) (reversed : Bool) :
    revFlip c reversed = (if reversed then 0 else 1#32 <<< c.crDir, 1#32 <<< c.crDir) := by
  simp [revFlip, h, crBit]

/-- Settles O29: no read completed, no latch, and the three cases of the vector. -/
theorem serviceResult : Obligations.ServiceResult := by
  intro s
  refine ⟨fun hread => ?noRead, fun hread hlatch => ?noLatch, fun hread hlatch =>
    ⟨fun hnone => ?none, fun c hchan hc => ?_⟩⟩
  case noRead => rw [exec_edgeSvc, irqService_noRead hread]
  case noLatch => rw [exec_edgeSvc, irqService_notLatched hread hlatch]
  case none =>
    rw [exec_edgeSvc, irqService_latched hread hlatch, if_neg]
    exact fun h => Bool.noConfusion (hnone.symm.trans h.1)
  obtain rfl : c = vectorChannel s.irqVector := Fin.ext hc
  refine ⟨fun hpending => ?notPending, fun hpending => ?flip, fun hfn => revFlip_specDefault hfn _,
    fun hcfg => ?default⟩
  case notPending =>
    rw [exec_edgeSvc, irqService_latched hread hlatch, if_neg]
    exact fun h => Bool.noConfusion (hpending.symm.trans h.2)
  case flip =>
    refine ⟨_, exec_crFieldWrite .., ?_⟩
    rw [exec_edgeSvc, irqService_latched hread hlatch, if_pos ⟨hchan, hpending⟩]
    rfl
  case default =>
    rw [hcfg, revFlip_specDefault rfl]
    rfl

end Sys2Proof.Machine
end

section
/-! PROOFS. A masked logical write on the bus: each of its four bytes takes one edge, or two if its mask is partial,
and ends as one write of the new bits over the device's (41_edge_sequencer.md R155 to R160). -/

namespace Sys2Proof.Machine

/-! ### The byte that is written -/

/-- Under the full mask nothing of the old byte is left. -/
@[simp] theorem mergeByte_full (new old : Byte) : mergeByte new old 0xFF = new := by
  have hones : (0xFF : Byte) = BitVec.allOnes 8 := by decide
  simp only [mergeByte, hones, BitVec.and_allOnes, BitVec.not_allOnes, BitVec.and_zero, BitVec.or_zero]

/-- Merged byte by byte, a word is merged under its mask. -/
theorem wordOfBytes_mergeByte (v m : Word) (b0 b1 b2 b3 : Byte) :
    wordOfBytes (mergeByte (byteOf v 0) b0 (byteOf m 0)) (mergeByte (byteOf v 1) b1 (byteOf m 1))
        (mergeByte (byteOf v 2) b2 (byteOf m 2)) (mergeByte (byteOf v 3) b3 (byteOf m 3)) =
      (v &&& m) ||| (wordOfBytes b0 b1 b2 b3 &&& ~~~m) := by
  apply BitVec.eq_of_getLsbD_eq
  intro k hk
  simp only [mergeByte, wordOfBytes, BitVec.getLsbD_or, BitVec.getLsbD_and, BitVec.getLsbD_not,
    BitVec.getLsbD_append, byteOf_getLsbD, shiftOf]
  grind

/-- The last byte of a word, in seven bits, is the word in seven bits: the page of a write to REG_PAGE. -/
theorem wordOfBytes_setWidth_page (a b c d : Byte) : (wordOfBytes a b c d).setWidth 7 = d.setWidth 7 := by
  apply BitVec.eq_of_getLsbD_eq
  intro k hk
  simp only [wordOfBytes, BitVec.getLsbD_setWidth, BitVec.getLsbD_append]
  grind

theorem busAddr_inj {a a' : BitVec 4} {st st' : BitVec 2} (h : busAddr a st = busAddr a' st') : a = a' ∧ st = st' := by
  have hnat := congrArg BitVec.toNat h
  rw [busAddr_toNat, busAddr_toNat] at hnat
  have := st.isLt
  have := st'.isLt
  constructor <;> apply BitVec.eq_of_toNat_eq <;> omega

/-- Only step 3 of REG_PAGE is the byte that selects the page. -/
theorem busAddr_eq_pageByte (a r : BitVec 4) (st : BitVec 2) : busAddr a st = busAddr r 3 ↔ st = 3 ∧ a = r :=
  ⟨fun h => (busAddr_inj h).symm, fun ⟨hst, ha⟩ => by rw [hst, ha]⟩

/-! ### The register's four bytes, written -/

/-- The pool with the four bytes of a register written, most significant first. -/
def registerWritten (m : Memory) (page : BitVec 7) (a : BitVec 4) (b0 b1 b2 b3 : Byte) : Memory :=
  Memory.write (Memory.write (Memory.write (Memory.write m (poolAddr page (busAddr a 0)) b0)
    (poolAddr page (busAddr a 1)) b1) (poolAddr page (busAddr a 2)) b2) (poolAddr page (busAddr a 3)) b3

theorem poolAddr_busAddr_inj (page : BitVec 7) (a : BitVec 4) (st st' : BitVec 2) :
    poolAddr page (busAddr a st) = poolAddr page (busAddr a st') ↔ st = st' :=
  ⟨fun h => (busAddr_inj (poolAddr_inj h).2).2, fun h => h ▸ rfl⟩

/-- The four places of a register are those whose quotient by four is the register's (20_memory.md R70). -/
theorem ne_poolAddr_busAddr {page : BitVec 7} {a : BitVec 4} {x : Nat} (h : x / 4 ≠ page.toNat * 16 + a.toNat)
    (st : BitVec 2) : x ≠ poolAddr page (busAddr a st) := by
  have := st.isLt
  rw [poolAddr, busAddr_toNat]
  omega

theorem registerWritten_read {m : Memory} (hwf : Memory.wf m = true) (page : BitVec 7) (a : BitVec 4)
    (b0 b1 b2 b3 : Byte) (x : Nat) :
    Memory.read (registerWritten m page a b0 b1 b2 b3) x =
      if x = poolAddr page (busAddr a 3) then b3 else if x = poolAddr page (busAddr a 2) then b2
      else if x = poolAddr page (busAddr a 1) then b1 else if x = poolAddr page (busAddr a 0) then b0
      else Memory.read m x := by
  have hwf0 := memory_write_wf hwf (poolAddr page (busAddr a 0)) b0
  have hwf1 := memory_write_wf hwf0 (poolAddr page (busAddr a 1)) b1
  have hwf2 := memory_write_wf hwf1 (poolAddr page (busAddr a 2)) b2
  rw [registerWritten, memory_wf_read_write hwf2, memory_wf_read_write hwf1, memory_wf_read_write hwf0,
    memory_wf_read_write hwf]

theorem registerWritten_poolReg {m : Memory} (hwf : Memory.wf m = true) (page : BitVec 7) (a : BitVec 4)
    (b0 b1 b2 b3 : Byte) :
    poolReg (registerWritten m page a b0 b1 b2 b3) page.toNat a.toNat = wordOfBytes b0 b1 b2 b3 := by
  rw [poolReg_eq]
  simp [registerWritten_read hwf, poolAddr_busAddr_inj]

theorem registerWritten_frame {m : Memory} (hwf : Memory.wf m = true) {page : BitVec 7} {a : BitVec 4} {x : Nat}
    (h : x / 4 ≠ page.toNat * 16 + a.toNat) (b0 b1 b2 b3 : Byte) :
    Memory.read (registerWritten m page a b0 b1 b2 b3) x = Memory.read m x := by
  simp only [registerWritten_read hwf, if_neg (ne_poolAddr_busAddr h _)]

/-- Writing one byte of a register leaves its other bytes. -/
theorem memory_read_otherByte {m : Memory} (hwf : Memory.wf m = true) (page : BitVec 7) (a : BitVec 4)
    {st st' : BitVec 2} (h : st' ≠ st) (b : Byte) :
    Memory.read (Memory.write m (poolAddr page (busAddr a st)) b) (poolAddr page (busAddr a st')) =
      Memory.read m (poolAddr page (busAddr a st')) := by
  rw [memory_wf_read_write hwf, if_neg (mt (poolAddr_busAddr_inj ..).1 h)]

/-! ### The edges of a byte -/

/-- How many edges a byte of a masked write takes (41_edge_sequencer.md R158). -/
def byteEdges (m : Word) (st : BitVec 2) : Nat := if byteOf m st = 0xFF then 1 else 2

theorem byteEdges_sum (m : Word) :
    4 + partialBytes m = byteEdges m 0 + (byteEdges m 1 + (byteEdges m 2 + byteEdges m 3)) := by
  have hcount (st : BitVec 2) : byteEdges m st = 1 + if byteOf m st != 0xFF then 1 else 0 := by
    simp only [byteEdges, bne_iff_ne]
    split <;> simp_all
  simp only [hcount, partialBytes, wordBytes_eq, List.countP_cons, List.countP_nil, BitVec.ofNat_eq_ofNat]
  omega

/-- The logical write begun in `s` has reached `t`: the pool is `pool`, PQ is down to `left`, the bytes at the bus
addresses `written` have been written, and what no write touches is as it was. -/
structure WriteReached (s t : State) (pool : Memory) (left : List PT) (written : List (BitVec 6)) : Prop where
  pool : t.pool = pool
  pq : t.pq = left
  written : ∃ calls : List DevCall, t.trace = s.trace ++ calls ∧
    (busWrites calls).map Prod.fst = written.map fun a => a.setWidth 8
  wasRead : t.wasRead = s.wasRead
  lq : t.lq = s.lq
  ch : t.ch = s.ch
  acc : t.acc = s.acc
  curPage : t.curPage = s.curPage
  irqLatched : t.irqLatched = s.irqLatched
  cfg : t.cfg = s.cfg

/-- Before its first edge nothing is written. -/
theorem WriteReached.start (s : State) : WriteReached s s s.pool s.pq [] where
  pool := rfl
  pq := rfl
  written := ⟨[], (List.append_nil _).symm, rfl⟩
  wasRead := rfl
  lq := rfl
  ch := rfl
  acc := rfl
  curPage := rfl
  irqLatched := rfl
  cfg := rfl

section
variable {s t : State} {pool : Memory} {written : List (BitVec 6)} {w : PT} {v : Word} {st : BitVec 2} {a : BitVec 4}
  {m d : Word} {rest : List PT} {page : BitVec 7}

/-- The bus phase that stages the front byte writes nothing. -/
theorem WriteReached.staged (h : WriteReached s t pool (w :: rest) written) (hcycle : t.cycle = 0)
    (hw : w.payload = .write v) (hm : byteMask w ≠ 0xFF) (hvalid : t.holdValid = false) :
    WriteReached s t.busPhase pool (w :: rest) written := by
  rw [busPhase_stage hcycle h.pq hw hm hvalid]
  obtain ⟨calls, htrace, hwrites⟩ := h.written
  refine { h with written := ⟨calls ++ [.bus ⟨t.edgeNo, false, ptAddr w, t.hostByte (ptAddr w)⟩], ?_, ?_⟩ }
  · simp only [htrace, List.append_assoc]
  · rw [busWrites_append, ← hwrites]
    exact congrArg _ (List.append_nil _)

/-- The commit of the front byte. -/
theorem WriteReached.committed (h : WriteReached s t pool (w :: rest) written) (b : Byte) :
    WriteReached s (t.committed w rest b) (Memory.write pool (poolAddr t.devPage (ptAddr w)) b) rest
      (written ++ [ptAddr w]) := by
  obtain ⟨calls, htrace, hwrites⟩ := h.written
  refine { h with
    pool := congrArg (Memory.write · _ b) h.pool
    pq := rfl
    written := ⟨calls ++ [.bus ⟨t.edgeNo, true, ptAddr w, b⟩], ?_, ?_⟩ }
  · simp only [State.committed, htrace, List.append_assoc]
  · rw [busWrites_append, List.map_append, List.map_append, hwrites]
    rfl

/-- One byte of the write: its edges end with one bus write of the new bits under the mask, over what the device
answered. Step 3 loads the delay, and of REG_PAGE it selects the page. -/
theorem WriteReached.byte (h : WriteReached s t pool (⟨.write v, st, a, m, d⟩ :: rest) written)
    (hread : s.wasRead = false) (hcycle : t.cycle = 0) (hvalid : t.holdValid = false) (hpage : t.devPage = page) :
    ∃ (b : Byte) (u : State), runAll (List.replicate (byteEdges m st) .edge) t = .next u ∧
      WriteReached s u (Memory.write pool (poolAddr page (busAddr a st)) b) rest (written ++ [busAddr a st]) ∧
      u.cycle = (if st = 3 then d.toNat else 0) ∧ u.holdValid = false ∧
      u.devPage = (if st = 3 ∧ a = s.cfg.regPage then b.setWidth 7 else page) ∧
      (s.cfg.device = .pool →
        b = mergeByte (byteOf v st) (pool.read (poolAddr page (busAddr a st))) (byteOf m st)) := by
  subst hpage
  have hedge := exec_edge_of_noRead (h.wasRead.trans hread)
  have hselect (b : Byte) :
      (if busAddr a st = busAddr s.cfg.regPage 3 then b.setWidth 7 else t.devPage) =
        if st = 3 ∧ a = s.cfg.regPage then b.setWidth 7 else t.devPage := by
    simp only [busAddr_eq_pageByte]
  by_cases hm : byteOf m st = 0xFF
  case pos =>
    -- EDGE.WFULL
    rw [busPhase_full hcycle h.pq rfl hm] at hedge
    refine ⟨byteOf v st, _, ?run, h.committed _, rfl, rfl, ?page, fun _ => ?value⟩
    case run => rw [byteEdges, if_pos hm]; exact runAll_cons_next hedge
    case page => rw [← hselect, ← h.cfg]; rfl
    case value => rw [hm, mergeByte_full]
  case neg =>
    -- EDGE.WSTAGE, then EDGE.WCOMMIT
    have h' := h.staged hcycle rfl hm hvalid
    have hstage := busPhase_stage hcycle h.pq rfl hm hvalid
    have hedge' := exec_edge_of_noRead (h'.wasRead.trans hread)
    rw [busPhase_commit (by rw [hstage]; exact hcycle) h'.pq rfl hm (by rw [hstage])] at hedge'
    have hkept : t.busPhase.devPage = t.devPage := by rw [hstage]
    refine ⟨t.busPhase.holdVal, _, ?run, hkept ▸ h'.committed _, rfl, rfl, ?page, fun hpool => ?value⟩
    case run => rw [byteEdges, if_neg hm]; exact (runAll_cons_next hedge).trans (runAll_cons_next hedge')
    case page => rw [← hselect, ← h'.cfg, ← hkept]; rfl
    case value =>
      rw [hstage, hostByte_of_pool (by rw [h.cfg, hpool]), h.pool]
      rfl

end

/-! ### The four bytes -/

/-- The four bytes of a logical write, one after another, from the idle bus to the last commit. -/
theorem logicalWrite_edges {s : State} {a : BitVec 4} {v m d : Word} {rest : List PT} (hcycle : s.cycle = 0)
    (hvalid : s.holdValid = false) (hread : s.wasRead = false)
    (hpq : s.pq = expandLT ⟨.write v, a, m, d⟩ ++ rest) :
    ∃ (b0 b1 b2 b3 : Byte) (t : State), runAll (List.replicate (4 + partialBytes m) .edge) s = .next t ∧
      WriteReached s t (registerWritten s.pool s.devPage a b0 b1 b2 b3) rest
        [busAddr a 0, busAddr a 1, busAddr a 2, busAddr a 3] ∧
      t.cycle = d.toNat ∧ t.holdValid = false ∧
      t.devPage = (if a = s.cfg.regPage then b3.setWidth 7 else s.devPage) ∧
      (s.cfg.device = .pool → Memory.wf s.pool = true →
        wordOfBytes b0 b1 b2 b3 = (v &&& m) ||| (poolReg s.pool s.devPage.toNat a.toNat &&& ~~~m)) := by
  have h0 : WriteReached s s s.pool (⟨.write v, 0, a, m, 0⟩ :: ⟨.write v, 1, a, m, 0⟩ :: ⟨.write v, 2, a, m, 0⟩ ::
      ⟨.write v, 3, a, m, d⟩ :: rest) [] := { WriteReached.start s with pq := hpq }
  obtain ⟨b0, t1, e1, h1, hcycle1, hvalid1, hpage1, hb0⟩ := h0.byte hread hcycle hvalid rfl
  obtain ⟨b1, t2, e2, h2, hcycle2, hvalid2, hpage2, hb1⟩ := h1.byte hread hcycle1 hvalid1 (by simpa using hpage1)
  obtain ⟨b2, t3, e3, h3, hcycle3, hvalid3, hpage3, hb2⟩ := h2.byte hread hcycle2 hvalid2 (by simpa using hpage2)
  obtain ⟨b3, t4, e4, h4, hcycle4, hvalid4, hpage4, hb3⟩ := h3.byte hread hcycle3 hvalid3 (by simpa using hpage3)
  refine ⟨b0, b1, b2, b3, t4, ?run, h4, hcycle4, hvalid4, by simpa using hpage4, fun hpool hwf => ?bytes⟩
  case run =>
    rw [byteEdges_sum, List.replicate_add, List.replicate_add, List.replicate_add]
    simp only [runAll_append, e1, e2, e3, e4]
  case bytes =>
    have hwf0 := memory_write_wf hwf (poolAddr s.devPage (busAddr a 0)) b0
    have hwf1 := memory_write_wf hwf0 (poolAddr s.devPage (busAddr a 1)) b1
    rw [hb3 hpool, memory_read_otherByte hwf1 _ _ (by decide), memory_read_otherByte hwf0 _ _ (by decide),
      memory_read_otherByte hwf _ _ (by decide), hb2 hpool, memory_read_otherByte hwf0 _ _ (by decide),
      memory_read_otherByte hwf _ _ (by decide), hb1 hpool, memory_read_otherByte hwf _ _ (by decide), hb0 hpool,
      wordOfBytes_mergeByte, poolReg_eq]

/-- Settles O32: what the four bytes leave, and on the register pool their word read back. -/
theorem logicalWriteOnBus : Obligations.LogicalWriteOnBus := by
  intro s a v m d rest hcycle hvalid hread hpq
  obtain ⟨b0, b1, b2, b3, t, hrun, h, hcycle', hvalid', hpage, hbytes⟩ := logicalWrite_edges hcycle hvalid hread hpq
  refine ⟨t, hrun, h.pq, hcycle', hvalid', h.wasRead.trans hread, h.lq, h.ch, h.acc, h.curPage, h.irqLatched,
    h.written, fun hpool hwf => ?_⟩
  intro old new
  have hnew : wordOfBytes b0 b1 b2 b3 = new := hbytes hpool hwf
  rw [h.pool, ← hnew, wordOfBytes_setWidth_page]
  exact ⟨registerWritten_poolReg hwf .., hpage, fun x hx => registerWritten_frame hwf hx ..⟩

end Sys2Proof.Machine
end

section
/-! PROOFS. Step 1 of the translator: a slot that was not delivered sets what is already held, so that every slot
sets its field (42_channel_translator.md R182 to R191). -/

namespace Sys2Proof

/-! ### SetIfChanged with the value already held -/

theorem Chan.setOutVol_self (c : Chan) : c.setOutVol c.outVol = c := by simp [Chan.setOutVol]

theorem Chan.setOutLVol_self (c : Chan) : c.setOutLVol c.outLVol = c := by simp [Chan.setOutLVol]

theorem Chan.setOutRVol_self (c : Chan) : c.setOutRVol c.outRVol = c := by simp [Chan.setOutRVol]

theorem Chan.setBaseFreq_self (c : Chan) : c.setBaseFreq c.baseFreq = c := by simp [Chan.setBaseFreq]

theorem Chan.setPitch2_self (c : Chan) : c.setPitch2 c.pitch2 = c := by simp [Chan.setPitch2]

theorem Chan.setK1Offs_self (c : Chan) : c.setK1Offs c.k1Offs = c := by simp [Chan.setK1Offs]

theorem Chan.setK2Offs_self (c : Chan) : c.setK2Offs c.k2Offs = c := by simp [Chan.setK2Offs]

/-- A setter called only under a condition is the setter called with the value already held where it fails. -/
theorem Chan.ite_set {α : Type} {set : Chan → α → Chan} {get : Chan → α} (hself : ∀ c, set c (get c) = c)
    (p : Prop) [Decidable p] (c : Chan) (v : α) : (if p then set c v else c) = set c (if p then v else get c) := by
  split
  · rfl
  · exact (hself c).symm

theorem Chan.ite_keyOn (c : Chan) (b : Bool) :
    (if b then { c with keyOn := true } else c) = { c with keyOn := c.keyOn || b } := by
  cases b <;> simp

/-- `SetIfChanged` marks exactly a change (10_state.md R38). -/
theorem dirtyIf_eq {α : Type} [DecidableEq α] (flag : Bool) (old new : α) :
    dirtyIf flag old new = (flag || decide (new ≠ old)) := by
  by_cases h : old = new
  · simp [dirtyIf, h]
  · simp [dirtyIf, h, Ne.symm h]

theorem dirtyIf_two {α β : Type} [DecidableEq α] [DecidableEq β] (flag : Bool) (a a' : α) (b b' : β) :
    dirtyIf (dirtyIf flag a a') b b' = (flag || decide (a' ≠ a) || decide (b' ≠ b)) := by
  rw [dirtyIf_eq, dirtyIf_eq]

theorem dirtyIf_three {α β γ : Type} [DecidableEq α] [DecidableEq β] [DecidableEq γ] (flag : Bool) (a a' : α)
    (b b' : β) (d d' : γ) :
    dirtyIf (dirtyIf (dirtyIf flag a a') b b') d d' =
      (flag || decide (a' ≠ a) || decide (b' ≠ b) || decide (d' ≠ d)) := by
  rw [dirtyIf_two, dirtyIf_eq]

/-! ### The coefficient slots -/

/-- The coefficient that the slot `t` leaves where `k` was held (42_channel_translator.md R189). -/
def slotCoefficient (k : Half) (t : Slot) : Half :=
  if t.had ∧ (t.mode = 0 ∨ t.mode = 1) then clampHalf t.val
  else if t.had ∧ t.mode = 2 then clampHalf (k.toNat + t.val)
  else k

/-- Over both coefficients: a slot sets the offset in mode 0, and the coefficient. -/
theorem Chan.coefficient_set {setOffs : Chan → Int → Chan} {setK : Chan → Half → Chan} {c : Chan}
    {offs : Int} {k : Half} (hoffs : setOffs c offs = c) (hk : setK c k = c) (t : Slot) (v : Int) :
    (if t.had then
      if t.mode = 0 then setK (setOffs c v) (clampHalf t.val)
      else if t.mode = 1 then setK c (clampHalf t.val)
      else if t.mode = 2 then setK c (clampHalf (k.toNat + t.val))
      else c
    else c) = setK (setOffs c (if t.had ∧ t.mode = 0 then v else offs)) (slotCoefficient k t) := by
  by_cases hhad : t.had = true
  · by_cases h0 : t.mode = 0
    · simp [slotCoefficient, hhad, h0]
    · by_cases h1 : t.mode = 1
      · simp [slotCoefficient, hhad, h1, hoffs]
      · by_cases h2 : t.mode = 2
        · simp [slotCoefficient, hhad, h2, hoffs]
        · simp [slotCoefficient, hhad, h0, h1, h2, hoffs, hk]
  · simp [slotCoefficient, hhad, hoffs, hk]

namespace Machine

/-- The channel after the two coefficient slots. The offset that `ex2` sets is `ex1`'s value
(42_channel_translator.md R189, 93_implementation_defined.md U8). -/
def coefficientsSet (m : MacroIn) (c : Chan) : Chan :=
  let k1 := slotCoefficient c.filter.k1 m.ex1
  let k2 := slotCoefficient c.filter.k2 m.ex2
  let k1Offs := if m.ex1.had ∧ m.ex1.mode = 0 then m.ex1.val else c.k1Offs
  let k2Offs := if m.ex2.had ∧ m.ex2.mode = 0 then m.ex1.val else c.k2Offs
  { c with
    filter.k1 := k1, filter.k2 := k2, k1Offs := k1Offs, k2Offs := k2Offs
    filterChanged.k1 := dirtyIf (dirtyIf c.filterChanged.k1 c.k1Offs k1Offs) c.filter.k1 k1
    filterChanged.k2 := dirtyIf (dirtyIf c.filterChanged.k2 c.k2Offs k2Offs) c.filter.k2 k2 }

theorem applyK1Macro_eq (m : MacroIn) (c : Chan) :
    applyK1Macro m c =
      (c.setK1Offs (if m.ex1.had ∧ m.ex1.mode = 0 then m.ex1.val else c.k1Offs)).setK1
        (slotCoefficient c.filter.k1 m.ex1) :=
  Chan.coefficient_set c.setK1Offs_self (Chan.setK1_of_eq rfl) m.ex1 m.ex1.val

theorem applyK2Macro_eq (m : MacroIn) (c : Chan) :
    applyK2Macro m c =
      (c.setK2Offs (if m.ex2.had ∧ m.ex2.mode = 0 then m.ex1.val else c.k2Offs)).setK2
        (slotCoefficient c.filter.k2 m.ex2) :=
  Chan.coefficient_set c.setK2Offs_self (Chan.setK2_of_eq rfl) m.ex2 m.ex1.val

theorem applyK2Macro_applyK1Macro (m : MacroIn) (c : Chan) :
    applyK2Macro m (applyK1Macro m c) = coefficientsSet m c := by
  simp only [applyK2Macro_eq, applyK1Macro_eq, coefficientsSet, Chan.setK1Offs, Chan.setK1, Chan.setK2Offs, Chan.setK2]

/-! ### The plain slots -/

/-- The channel after volume, pan, arpeggio, pitch, phase reset and filter mode: each field at its slot's value, or as
it was where the slot was not delivered (42_channel_translator.md R183 to R188). -/
def plainSet (cfg : Cfg) (m : MacroIn) (c : Chan) : Chan :=
  let outVol := if m.vol.had then volMacroApply cfg c.vol m.vol.val else c.outVol
  let outLVol := if m.panL.had then panMacroApply cfg c.lVol m.panL.val else c.outLVol
  let outRVol := if m.panR.had then panMacroApply cfg c.rVol m.panR.val else c.outRVol
  let baseFreq := if m.arp.had then noteFreq cfg (arpNote cfg c.note m.arp.val m.arp.mode) else c.baseFreq
  let pitch2 := if m.pitch.had then (if m.pitch.mode = 1 then c.pitch2 + m.pitch.val else m.pitch.val) else c.pitch2
  let mode := if m.duty.had then BitVec.ofInt 2 m.duty.val else c.filter.mode
  { c with
    outVol := outVol, outLVol := outLVol, outRVol := outRVol, baseFreq := baseFreq, pitch2 := pitch2
    volChanged := dirtyIf (dirtyIf (dirtyIf c.volChanged c.outVol outVol) c.outLVol outLVol) c.outRVol outRVol
    freqChanged := dirtyIf (dirtyIf c.freqChanged c.baseFreq baseFreq) c.pitch2 pitch2
    keyOn := c.keyOn || (m.phaseReset.had && decide (m.phaseReset.val = 1))
    filter.mode := mode, filterChanged.mode := dirtyIf c.filterChanged.mode c.filter.mode mode }

theorem applyPlainMacros_eq (cfg : Cfg) (m : MacroIn) (c : Chan) : applyPlainMacros cfg m c = plainSet cfg m c := by
  have hmode (c : Chan) : c.setFilterMode c.filter.mode = c := Chan.setFilterMode_of_eq rfl
  simp only [applyPlainMacros, Chan.ite_set Chan.setOutVol_self, Chan.ite_set Chan.setOutLVol_self,
    Chan.ite_set Chan.setOutRVol_self, Chan.ite_set Chan.setBaseFreq_self, Chan.ite_set Chan.setPitch2_self,
    Chan.ite_keyOn, Chan.ite_set hmode]
  simp only [plainSet, Chan.setOutVol, Chan.setOutLVol, Chan.setOutRVol, Chan.setBaseFreq, Chan.setPitch2,
    Chan.setFilterMode]

/-! ### The envelope slots -/

/-- Envelope updates change the envelope and its flags alone. -/
theorem foldl_applyEnv_frame (us : List EnvUpdate) (c : Chan) :
    us.foldl Chan.applyEnv c =
      { c with env := (us.foldl Chan.applyEnv c).env, envChanged := (us.foldl Chan.applyEnv c).envChanged } := by
  induction us generalizing c with
  | nil => rfl
  | cons u us ih => exact (ih (c.applyEnv u)).trans (by cases u <;> rfl)

theorem foldl_applyEnv_ecount (t : Slot) (c : Chan) :
    (if t.had then [.ecount (BitVec.ofInt 16 t.val)] else []).foldl Chan.applyEnv c =
      c.setEcount (if t.had then BitVec.ofInt 16 t.val else c.env.ecount) := by
  cases t.had
  · exact (Chan.setEcount_of_eq rfl).symm
  · rfl

theorem foldl_applyEnv_ramps (t : Slot) (c : Chan) :
    (if t.had then [.lVRamp (truncByte t.val), .rVRamp (truncByte t.val)] else []).foldl Chan.applyEnv c =
      (c.setLVRamp (if t.had then BitVec.ofInt 8 t.val else c.env.lVRamp)).setRVRamp
        (if t.had then BitVec.ofInt 8 t.val else c.env.rVRamp) := by
  cases t.had
  · exact ((Chan.setRVRamp_of_eq rfl).trans (Chan.setLVRamp_of_eq rfl)).symm
  · rfl

/-- The placeholder EnvMacroMap, each field at its slot's value (42_channel_translator.md R191). -/
theorem applyEnvMacros_specDefault {cfg : Cfg} (h : cfg.envMacroFn = .specDefault) (m : MacroIn) (c : Chan) :
    applyEnvMacros cfg m c =
      ((c.setEcount (if m.ex3.had then BitVec.ofInt 16 m.ex3.val else c.env.ecount)).setLVRamp
          (if m.ex4.had then BitVec.ofInt 8 m.ex4.val else c.env.lVRamp)).setRVRamp
        (if m.ex4.had then BitVec.ofInt 8 m.ex4.val else c.env.rVRamp) := by
  rw [applyEnvMacros, envMacroMap, h]
  dsimp only
  rw [List.foldl_append, foldl_applyEnv_ecount, foldl_applyEnv_ramps]
  rfl

theorem applyEnvMacros_undelivered (cfg : Cfg) {m : MacroIn} (h3 : m.ex3.had = false) (h4 : m.ex4.had = false)
    (c : Chan) : applyEnvMacros cfg m c = c := by
  rw [applyEnvMacros, envMacroMap_undelivered cfg h3 h4, List.foldl_nil]

/-! ### The whole step -/

theorem applyMacros_eq (cfg : Cfg) (m : MacroIn) (c : Chan) :
    applyMacros cfg m c = applyEnvMacros cfg m (coefficientsSet m (plainSet cfg m c)) := by
  rw [applyMacros, applyPlainMacros_eq, applyK2Macro_applyK1Macro]

/-- Beside the envelope, step 1 is the plain and the coefficient slots under every EnvMacroMap. -/
theorem applyMacros_frame (cfg : Cfg) (m : MacroIn) (c : Chan) :
    applyMacros cfg m c =
      { coefficientsSet m (plainSet cfg m c) with
        env := (applyMacros cfg m c).env, envChanged := (applyMacros cfg m c).envChanged } := by
  rw [applyMacros_eq]
  exact foldl_applyEnv_frame ..

/-- Settles O35: the channel is `applyMacros_frame`'s record, whose fields are read off; what remains is each flag, and
the envelope under the placeholder and where neither of its slots is delivered. -/
theorem macroResult : Obligations.MacroResult := by
  intro i m s c coefficient
  refine ⟨applyMacros s.cfg m c, rfl, ?_⟩
  rw [applyMacros_frame]
  refine ⟨rfl, rfl, rfl, ?volChanged, rfl, rfl, ?freqChanged, rfl, rfl, rfl, rfl, rfl, rfl, ?modeChanged, ?k1Changed,
    ?k2Changed, fun hdefault => ?placeholder, fun h3 h4 => ?undelivered, rfl⟩
  case volChanged => exact dirtyIf_three ..
  case freqChanged => exact dirtyIf_two ..
  case modeChanged => exact dirtyIf_eq ..
  case k1Changed => exact (dirtyIf_two ..).trans (Bool.or_right_comm ..)
  case k2Changed => exact (dirtyIf_two ..).trans (Bool.or_right_comm ..)
  case placeholder =>
    rw [applyMacros_eq, applyEnvMacros_specDefault hdefault]
    simp only [Chan.setEcount, Chan.setLVRamp, Chan.setRVRamp, dirtyIf_eq]
    exact ⟨rfl, rfl⟩
  case undelivered =>
    rw [applyMacros_eq, applyEnvMacros_undelivered s.cfg h3 h4]
    exact ⟨rfl, rfl⟩

end Machine

end Sys2Proof
end

section
/-! PROOFS. Steps 2 to 4 of the translator: the resultant volumes, and the changed filter and envelope fields written
in their fixed order (42_channel_translator.md R190 to R194). -/

namespace Sys2Proof

/-! ### Flags -/

theorem FilterFlags.any_eq_false_iff (f : FilterFlags) : f.any = false ↔ f = ⟨false, false, false⟩ := by
  obtain ⟨mode, k1, k2⟩ := f
  simp [FilterFlags.any, and_assoc]

theorem EnvFlags.any_eq_false_iff (f : EnvFlags) : f.any = false ↔ f = ⟨false, false, false, false, false⟩ := by
  obtain ⟨ecount, lVRamp, rVRamp, k1Ramp, k2Ramp⟩ := f
  simp [EnvFlags.any, and_assoc]

theorem FilterFlags.any_of_ne {f : FilterFlags} (h : f ≠ ⟨false, false, false⟩) : f.any = true :=
  eq_true_of_ne_false (mt f.any_eq_false_iff.1 h)

theorem EnvFlags.any_of_ne {f : EnvFlags} (h : f ≠ ⟨false, false, false, false, false⟩) : f.any = true :=
  eq_true_of_ne_false (mt f.any_eq_false_iff.1 h)

namespace Machine

/-! ### Register writes behind a channel that has changed -/

/-- `t` is what the operations `ops` make of `s`, with channel i at `c` from before the first of them: writes neither
read nor change the channels, so that the change may as well come last. -/
def WritesBehind (s : State) (i : ChIx) (c : Chan) (ops : List Instr) (t : State) : Prop :=
  ∃ u, runAll ops s = .next u ∧ u.cfg = s.cfg ∧ u.ch = s.ch ∧ t = u.setChan i c

section

variable {s t t' : State} {i : ChIx} {c : Chan} {ops : List Instr}

theorem WritesBehind.start (s : State) (i : ChIx) (c : Chan) : WritesBehind s i c [] (s.setChan i c) :=
  ⟨s, rfl, rfl, rfl, rfl⟩

theorem WritesBehind.cfg_eq (h : WritesBehind s i c ops t) : t.cfg = s.cfg := by
  obtain ⟨u, _, hcfg, _, rfl⟩ := h
  exact hcfg

/-- One more page-addressed write, made by the operation `op`. -/
theorem WritesBehind.pgWriteM (h : WritesBehind s i c ops t) {op : Instr} {p pm : Byte} {r : BitVec 4} {v m d : Word}
    (hop : ∀ u : State, u.cfg = s.cfg → exec op u = .next (u.pgWriteM p pm r v m d)) :
    WritesBehind s i c (ops ++ [op]) (t.pgWriteM p pm r v m d) := by
  obtain ⟨u, hrun, hcfg, hch, rfl⟩ := h
  refine ⟨_, ?_, (pgWriteM_cfg ..).trans hcfg, (pgWriteM_ch ..).trans hch, pgWriteM_setChan ..⟩
  rw [runAll_append, hrun]
  exact runAll_cons_next (hop u hcfg)

theorem WritesBehind.writeA (h : WritesBehind s i c ops t) (r : BitVec 4) (v : Word) :
    WritesBehind s i c (ops ++ [regWrite (pgA s.cfg i) r v]) (t.writeA i r v) := by
  rw [State.writeA, State.pgWrite, h.cfg_eq]
  exact h.pgWriteM fun u hu => hu ▸ exec_regWrite (pgA_le u.cfg i) r v u

theorem WritesBehind.writeCr (h : WritesBehind s i c ops t) (v m : Word) :
    WritesBehind s i c (ops ++ [crFieldWrite s.cfg i v m]) (t.writeCr i v m) := by
  rw [State.writeCr, h.cfg_eq]
  exact h.pgWriteM fun u _ => exec_crFieldWrite s.cfg i v m u

/-- One more operation, made only under a flag. -/
theorem WritesBehind.underFlag (h : WritesBehind s i c ops t) {op : Instr} (h' : WritesBehind s i c (ops ++ [op]) t')
    (flag : Bool) : WritesBehind s i c (ops ++ if flag then [op] else []) (if flag then t' else t) := by
  cases flag with
  | true => exact h'
  | false => exact (List.append_nil ops).symm ▸ h

theorem WritesBehind.writeAIf (h : WritesBehind s i c ops t) (flag : Bool) (r : BitVec 4) (v : Word) :
    WritesBehind s i c (ops ++ if flag then [regWrite (pgA s.cfg i) r v] else [])
      (if flag then t.writeA i r v else t) :=
  h.underFlag (h.writeA r v) flag

theorem WritesBehind.writeCrIf (h : WritesBehind s i c ops t) (flag : Bool) (v m : Word) :
    WritesBehind s i c (ops ++ if flag then [crFieldWrite s.cfg i v m] else [])
      (if flag then t.writeCr i v m else t) :=
  h.underFlag (h.writeCr v m) flag

/-- A step whose state has been followed so far: the writes run from `s` itself, and the changed channel is put in place
behind them. -/
theorem WritesBehind.exec_eq (h : WritesBehind s i c ops t) {op : Instr} (hop : exec op s = .next t) :
    ∃ u, runAll ops s = .next u ∧ exec op s = .next { u with ch := s.ch.set i c } := by
  obtain ⟨u, hrun, _, hch, rfl⟩ := h
  exact ⟨u, hrun, by rw [hop, State.setChan, hch]⟩

end

/-! ### Step 2: the volumes -/

/-- Settles O36: no flag, a key-on pending, and the two writes behind the changed channel. -/
theorem volResult : Obligations.VolResult := by
  intro i s c l r x
  have hres : resultants (s.muted.get i) c = (l, r) := by
    cases hmuted : s.muted.get i <;> simp [resultants, resultantVol, l, r, hmuted]
  have hstep (hchanged : c.volChanged = true) : s.tVol i =
      if c.keyOn = true then s.setChan i x
      else ((s.setChan i x).writeA i s.cfg.regLvol (l.setWidth 32)).writeA i s.cfg.regRvol (r.setWidth 32) := by
    rw [State.tVol, if_pos hchanged, hres]
  refine ⟨fun hclean => ?clean, fun hchanged hon => ?keyOn, fun hchanged hoff => ?written⟩
  case clean => exact congrArg Host.Outcome.next (if_neg (by simp [c, hclean]))
  case keyOn => exact congrArg Host.Outcome.next ((hstep hchanged).trans (if_pos hon))
  case written =>
    have hvol := (hstep hchanged).trans (if_neg (ne_true_of_eq_false hoff))
    exact (((WritesBehind.start s i x).writeA ..).writeA ..).exec_eq (congrArg Host.Outcome.next hvol)

/-! ### Step 3: the filter -/

/-- Settles O37: no flag, a key-on pending, and the writes of the set flags behind the changed channel. -/
theorem filtResult : Obligations.FiltResult := by
  intro i m s c f a written x
  refine ⟨fun hclean => ?clean, fun hchanged hon => ?keyOn, fun hchanged hoff => ?written⟩
  case clean => exact congrArg Host.Outcome.next (if_neg (ne_true_of_eq_false (f.any_eq_false_iff.2 hclean)))
  case keyOn => exact congrArg Host.Outcome.next ((if_pos (FilterFlags.any_of_ne hchanged)).trans (if_pos hon))
  case written =>
    refine ((((WritesBehind.start s i x).writeCrIf f.mode ..).writeAIf f.k2 ..).writeAIf f.k1 ..).exec_eq
      (congrArg Host.Outcome.next ?_)
    exact (if_pos (FilterFlags.any_of_ne hchanged)).trans (if_neg (ne_true_of_eq_false hoff))

/-! ### Step 4: the envelope -/

/-- A ramp without a slow flag is the ramp word with bit 0 clear (30_encoding.md R110). -/
theorem rampWordK_false (cfg : Cfg) (r : Byte) : rampWordK cfg r false = rampWord cfg r := BitVec.or_zero

/-- Settles O38: no flag, a key-on pending, and the writes of the set flags behind the changed channel. -/
theorem envResult : Obligations.EnvResult := by
  intro i s c f a ramp x
  have hramp (r : Byte) : ramp r false = rampWord s.cfg r := rampWordK_false s.cfg r
  refine ⟨fun hclean => ?clean, fun hchanged hon => ?keyOn, fun hchanged hoff => ?written⟩
  case clean => exact congrArg Host.Outcome.next (if_neg (ne_true_of_eq_false (f.any_eq_false_iff.2 hclean)))
  case keyOn => exact congrArg Host.Outcome.next ((if_pos (EnvFlags.any_of_ne hchanged)).trans (if_pos hon))
  case written =>
    rw [hramp, hramp]
    refine ((((((WritesBehind.start s i x).writeAIf f.lVRamp ..).writeAIf f.rVRamp ..).writeAIf f.ecount ..).writeAIf
      f.k2Ramp ..).writeAIf f.k1Ramp ..).exec_eq (congrArg Host.Outcome.next ?_)
    exact (if_pos (EnvFlags.any_of_ne hchanged)).trans (if_neg (ne_true_of_eq_false hoff))

end Machine

end Sys2Proof
end

section
/-! PROOFS. The pass: the input of each channel taken and its five steps run, channel after channel
(42_channel_translator.md R180, R181, 45_device_facade.md R300). -/

namespace Sys2Proof.Machine

/-! ### The input of a channel -/

theorem nextMacro_of_scripted {s : State} {m : MacroStep} {rest : List MacroStep} (h : s.macroIn = m :: rest)
    (i : ChIx) (isSystemTick : Bool) : s.nextMacro i isSystemTick = m := by
  rw [State.nextMacro, h, List.headD_cons]

theorem nextMacro_of_free {s : State} (h : s.macroIn = []) (i : ChIx) (isSystemTick : Bool) :
    s.nextMacro i isSystemTick = Config.macroAdvance s.freeCtr (s.chan i).cursor isSystemTick := by
  rw [State.nextMacro, h, List.headD_nil]

/-! ### The channels in turn -/

/-- The five steps, run as operations, are the translator's work on the channel once its input is taken. -/
theorem runAll_channelSteps (s : State) (isSystemTick : Bool) (i : ChIx) :
    runAll (channelSteps i (s.nextMacro i isSystemTick).input) (s.takeMacro i isSystemTick) =
      .next (s.translateChannel isSystemTick i) := rfl

theorem passSteps_eq (isSystemTick : Bool) (is : List ChIx) (s : State) :
    passSteps isSystemTick is s = .next (is.foldl (fun t i => t.translateChannel isSystemTick i) s) := by
  induction is generalizing s with
  | nil => rfl
  | cons i is ih => rw [passSteps, runAll_channelSteps]; exact ih _

/-- Settles O44: the pass is its channels' steps in turn, and the input taken is scripted or free. -/
theorem tickRunsSteps : Obligations.TickRunsSteps := by
  refine ⟨fun isSystemTick s => ⟨_, passSteps_eq .., rfl⟩, ?_⟩
  intro isSystemTick i s taken
  refine ⟨fun m rest hscript => ?scripted, fun hscript => ?free⟩
  case scripted =>
    have hnext := nextMacro_of_scripted hscript i isSystemTick
    exact ⟨hnext, by simp [takeMacro_eq, hnext, hscript, taken]⟩
  case free =>
    have hnext := nextMacro_of_free hscript i isSystemTick
    exact ⟨hnext, by simp [takeMacro_eq, hnext, hscript, taken]⟩

end Sys2Proof.Machine
end

section
/-! PROOFS. Step 5 of the translator: the key-on sequence as page-addressed writes, as operations and as
transactions; key-off and the plain frequency write (43_keyon_keyoff.md R223 to R236). -/

namespace Sys2Proof.Machine

/-! ### The operations of step 5 -/

theorem exec_tFreq (i : ChIx) (m : MacroIn) (s : State) : exec (.tFreq i m) s = .next (s.tFreq i m) := rfl

theorem exec_tKeyon (i : ChIx) (m : MacroIn) (s : State) : exec (.tKeyon i m) s = .next (s.tKeyon i m) := rfl

theorem exec_tKeyoff (i : ChIx) (s : State) : exec (.tKeyoff i) s = .next (s.tKeyoff i) := rfl

theorem exec_tFreqw (i : ChIx) (s : State) : exec (.tFreqw i) s = .next (s.tFreqw i) := rfl

theorem keyOnDue_iff (c : Chan) : Chan.keyOnDue c = true ↔ c.keyOn = true ∧ c.pcm.index ≠ none := by
  rw [Chan.keyOnDue, Bool.and_eq_true, Option.isSome_iff_ne_none]

theorem pageWrites_keyOn_ch (s : State) (i : ChIx) (m : MacroIn) :
    (s.pageWrites (keyOnWrites s.cfg s.chanMax i m (s.chan i))).ch = s.ch := by
  have hqueues := pageWrites_queuesOnly _ (keyOnWrites_pages s.cfg s.chanMax i m (s.chan i)) s
  obtain ⟨_, _, hch, _⟩ := hqueues.same
  exact hch

/-- A key-on that is due: its writes, and the reverse-loop flag set for a loop that runs backward. -/
theorem tKeyon_of_due {s : State} {i : ChIx} (hon : (s.chan i).keyOn = true) (hsample : (s.chan i).pcm.index ≠ none)
    (m : MacroIn) :
    s.tKeyon i m = (s.pageWrites (keyOnWrites s.cfg s.chanMax i m (s.chan i))).modChan i fun x =>
      { x with isReverseLoop := decide ((s.chan i).pcm.loopMode = .backward) || (s.chan i).isReverseLoop } := by
  rw [State.tKeyon, if_pos ((keyOnDue_iff _).2 ⟨hon, hsample⟩), State.modChan, State.modChan,
    chan_congr (pageWrites_keyOn_ch s i m)]
  by_cases hback : (s.chan i).pcm.loopMode = .backward <;> simp [hback]

theorem tKeyoff_of_pending {s : State} {i : ChIx} (h : (s.chan i).keyOff = true) :
    s.tKeyoff i = s.writeCr i s.cfg.crWipeout allBits := if_pos h

theorem tFreqw_of_plain {s : State} {i : ChIx} (hon : (s.chan i).keyOn = false) (hoff : (s.chan i).keyOff = false)
    (hactive : (s.chan i).active = true) :
    s.tFreqw i = s.writeA i s.cfg.regFc ((s.chan i).freq.setWidth 32) := if_pos (by simp [hon, hoff, hactive])

/-- Settles O42: the two writes, each as the operation that makes it. -/
theorem keyoffAndFreqw : Obligations.KeyoffAndFreqw := by
  intro i s
  refine ⟨fun hoff => ⟨_, exec_crFieldWrite .., ?keyoff⟩,
    fun hon hoff hactive => ⟨_, exec_regWrite (pgA_le ..) .., ?plain⟩⟩
  case keyoff => rw [exec_tKeyoff, tKeyoff_of_pending hoff, State.writeCr]
  case plain => rw [exec_tFreqw, tFreqw_of_plain hon hoff hactive, State.writeA, State.pgWrite]

/-! ### What step 5 changes of the channels -/

/-- T.KEYON changes of the channels at most the reverse-loop flag of its own. -/
theorem tKeyon_ch (s : State) (i : ChIx) (m : MacroIn) :
    ∃ b, (s.tKeyon i m).ch = s.ch.set i { s.chan i with isReverseLoop := b } := by
  by_cases hdue : (s.chan i).keyOn = true ∧ (s.chan i).pcm.index ≠ none
  · obtain ⟨hon, hsample⟩ := hdue
    have hch := pageWrites_keyOn_ch s i m
    refine ⟨decide ((s.chan i).pcm.loopMode = .backward) || (s.chan i).isReverseLoop, ?_⟩
    rw [tKeyon_of_due hon hsample, State.modChan, chan_congr hch, setChan_ch, hch]
  · refine ⟨(s.chan i).isReverseLoop, ?_⟩
    rw [State.tKeyon, if_neg (mt (keyOnDue_iff _).1 hdue)]
    exact (Bank.set_get ..).symm

@[simp] theorem writeA_ch (s : State) (i : ChIx) (r : BitVec 4) (v : Word) : (s.writeA i r v).ch = s.ch :=
  pgWriteM_ch ..

@[simp] theorem writeCr_ch (s : State) (i : ChIx) (v m : Word) : (s.writeCr i v m).ch = s.ch := pgWriteM_ch ..

theorem tKeyoff_ch (s : State) (i : ChIx) : (s.tKeyoff i).ch = s.ch := by
  simp [State.tKeyoff, apply_ite State.ch]

theorem tFreqw_ch (s : State) (i : ChIx) : (s.tFreqw i).ch = s.ch := by
  simp [State.tFreqw, apply_ite State.ch]

/-! ### Key-on as nineteen operations -/

/-- Under the configuration `cfg` the operation `op` makes the page-addressed write `w`. -/
def Makes (cfg : Cfg) (op : Instr) (w : PageWrite) : Prop :=
  ∀ s : State, s.cfg = cfg → exec op s = .next (s.pgWriteM w.page w.pm w.reg w.value w.mask w.delay)

theorem makes_pgwrite {cfg : Cfg} {p : Byte} (hp : p.toNat ≤ 127) (r : BitVec 4) (v d : Word) :
    Makes cfg (.pgwrite (p.setWidth 32) (r.setWidth 32) v allBits d) { plainWrite cfg p r v with delay := d } := by
  rintro s rfl
  exact exec_pgwrite hp r v allBits d s

theorem makes_regWrite {cfg : Cfg} {p : Byte} (hp : p.toNat ≤ 127) (r : BitVec 4) (v : Word) :
    Makes cfg (regWrite p r v) (plainWrite cfg p r v) := makes_pgwrite hp r v 0

theorem makes_crFieldWrite (cfg : Cfg) (i : ChIx) (v m : Word) :
    Makes cfg (crFieldWrite cfg i v m) (crWrite cfg i v m) :=
  fun s _ => exec_crFieldWrite cfg i v m s

/-- Operations that each make their write, run in turn, make the writes in turn. -/
theorem runAll_makes {cfg : Cfg} {ops : List Instr} {ws : List PageWrite} (h : List.Forall₂ (Makes cfg) ops ws)
    {s : State} (hs : s.cfg = cfg) : runAll ops s = .next (s.pageWrites ws) := by
  induction h generalizing s with
  | nil => rfl
  | cons hop _ ih => exact (runAll_cons_next (hop s hs)).trans (ih ((pgWriteM_cfg ..).trans hs))

/-- Settles O40: each of the nineteen operations makes its write of the key-on sequence. -/
theorem keyonWrites : Obligations.KeyonWrites := by
  intro i m s c a b oneshot ramp written hon hsample
  have hramp (r : Byte) : ramp r false = rampWord s.cfg r := rampWordK_false s.cfg r
  have onA {r : BitVec 4} {v : Word} : Makes s.cfg (regWrite a r v) (plainWrite s.cfg a r v) :=
    makes_regWrite (pgA_le s.cfg i) r v
  have onB {r : BitVec 4} {v : Word} : Makes s.cfg (regWrite b r v) (plainWrite s.cfg b r v) :=
    makes_regWrite (pgB_le s.cfg i) r v
  have field {v mask : Word} : Makes s.cfg (crFieldWrite s.cfg i v mask) (crWrite s.cfg i v mask) :=
    makes_crFieldWrite s.cfg i v mask
  refine ⟨s.pageWrites (keyOnWrites s.cfg s.chanMax i m c), ?writes, ?answer⟩
  case writes =>
    rw [hramp, hramp]
    refine runAll_makes ?_ rfl
    exact .cons field <| .cons onA <| .cons onB <| .cons onA <| .cons (makes_pgwrite (pgA_le ..) _ _ _) <|
      .cons onA <| .cons onB <| .cons onB <| .cons onA <| .cons onA <| .cons onA <| .cons onA <| .cons field <|
      .cons onA <| .cons onA <| .cons onA <| .cons onA <| .cons field <| .cons onA .nil
  case answer =>
    rw [exec_tKeyon, tKeyon_of_due hon hsample, State.modChan, State.setChan, chan_congr (pageWrites_keyOn_ch s i m)]

/-! ### Key-on as transactions -/

/-- The register write of a page-addressed write, without the page select that may go before it. -/
def PageWrite.transaction (w : PageWrite) : LT := ⟨.write w.value, w.reg, w.mask, w.delay⟩

/-- What page-addressed writes add to LQ with the shadow at `cur`: each its transaction, behind a page select where its
page differs from the shadow of its turn under its mask (40_bus_queue.md R135, R136). -/
def queuedBy (regPage : BitVec 4) (cur : Byte) : List PageWrite → List LT
  | [] => []
  | w :: ws =>
    if w.page &&& w.pm = cur &&& w.pm then w.transaction :: queuedBy regPage cur ws
    else ⟨.write (w.page.setWidth 32), regPage, allBits, 0⟩ :: w.transaction :: queuedBy regPage w.page ws

/-- The shadow page that page-addressed writes leave. -/
def shadowAfter (cur : Byte) : List PageWrite → Byte
  | [] => cur
  | w :: ws => shadowAfter (if w.page &&& w.pm = cur &&& w.pm then cur else w.page) ws

/-- Page-addressed writes with no write skipped, spelled out. -/
theorem pageWrites_eq {s : State} (hskip : s.skipWrites = false) (ws : List PageWrite) :
    s.pageWrites ws =
      { s with curPage := shadowAfter s.curPage ws, lq := s.lq ++ queuedBy s.cfg.regPage s.curPage ws } := by
  induction ws generalizing s with
  | nil => simp [State.pageWrites, shadowAfter, queuedBy]
  | cons w ws ih =>
    have hstep : s.pageWrites (w :: ws) = (s.pgWriteM w.page w.pm w.reg w.value w.mask w.delay).pageWrites ws := rfl
    rw [hstep, ih ((pgWriteM_skipWrites ..).trans hskip), pgWriteM_eq, if_neg (by simp [hskip])]
    by_cases hagree : w.page &&& w.pm = s.curPage &&& w.pm <;>
      simp [shadowAfter, queuedBy, PageWrite.transaction, hagree]

/-- By default a channel's two pages differ under the full mask. -/
theorem pages_differ_default (i : ChIx) :
    pgB Cfg.default i &&& Cfg.default.pmFull ≠ pgA Cfg.default i &&& Cfg.default.pmFull := by
  revert i; decide

theorem pgA_default_word (i : ChIx) : (pgA Cfg.default i).setWidth 32 = BitVec.ofNat 32 i.val := by
  revert i; decide

theorem pgB_default_word (i : ChIx) : (pgB Cfg.default i).setWidth 32 = BitVec.ofNat 32 (0x20 + i.val) := by
  revert i; decide

/-- The loop field of the control register by default (30_encoding.md R116). -/
theorem loopCtl_default (mode : LoopMode) (reversed : Bool) :
    loopCtl Cfg.default mode reversed =
      (match mode with
        | .oneshot => 0x00
        | .forward => 0x08
        | .backward => 0x28
        | .pingpong => 0x18) ||| (if reversed then 0x40 else 0x00) := by
  cases mode <;> cases reversed <;> rfl

/-- The key-on delay as eight bus cycles a channel (43_keyon_keyoff.md R226). -/
theorem keyOnDelay_eq (chanMax : BitVec 5) : keyOnDelay chanMax = BitVec.ofNat 32 (8 * (chanMax.toNat + 1)) :=
  congrArg (BitVec.ofNat 32) (by omega)

/-- Settles O41: the key-on sequence leaves the parameter page for the address page twice and returns to it twice. -/
theorem keyOnQueuesTwentyThree : Obligations.KeyOnQueuesTwentyThree := by
  intro i m s c full pageA pageB oneshot ramp written loop hon hsample hcfg hskip hpage
  have hdiffer := pages_differ_default i
  have hstart : s.curPage = pgA Cfg.default i := hpage.trans (pgA_default i).symm
  have hramp (r : Byte) : rampWord Cfg.default r = ramp r false := (rampWordK_false Cfg.default r).symm
  refine ⟨_, exec_tKeyon .., ?shadow, ?queued⟩ <;> rw [tKeyon_of_due hon hsample, pageWrites_eq hskip, hcfg, hstart]
  case shadow =>
    simp only [State.modChan, setChan_curPage, keyOnWrites, plainWrite, crWrite, shadowAfter, hdiffer,
      hdiffer.symm, if_true, if_false]
  case queued =>
    simp only [State.modChan, setChan_lq, keyOnWrites, plainWrite, crWrite, queuedBy, PageWrite.transaction, hdiffer,
      hdiffer.symm, if_true, if_false, pgA_default_word, pgB_default_word, hramp, loopCtl_default, keyOnDelay_eq]
    rfl

end Sys2Proof.Machine
end

section
/-! PROOFS. T.FREQ as its three sub-steps, and the flags that the five steps of a channel and a whole pass leave
(43_keyon_keyoff.md R220, R221, R237). -/

namespace Sys2Proof.Machine

/-! ### T.FREQ -/

/-- An operation made only under a condition, where it would change nothing otherwise. -/
theorem runAll_ite {c : Prop} [Decidable c] {op : Instr} {s t : State} (hop : exec op s = .next t)
    (hoff : ¬c → exec op s = .next s) : runAll (if c then [op] else []) s = .next t := by
  by_cases h : c
  · rw [if_pos h]
    exact runAll_cons_next hop
  · rw [if_neg h]
    exact (hoff h).symm.trans hop

theorem runAll_append_next {xs ys : List Instr} {s t : State} (h : runAll xs s = .next t) :
    runAll (xs ++ ys) s = runAll ys t := by
  rw [runAll_append, h]

/-- The three sub-steps of step 5, each under its own condition on the channel (43_keyon_keyoff.md R220). -/
theorem runAll_subSteps (i : ChIx) (m : MacroIn) (s : State) :
    runAll
        ((if (s.chan i).keyOn = true ∧ (s.chan i).pcm.index ≠ none then [.tKeyon i m] else []) ++
          (if (s.chan i).keyOff = true then [.tKeyoff i] else []) ++
          (if (s.chan i).keyOn = false ∧ (s.chan i).keyOff = false ∧ (s.chan i).active = true then [.tFreqw i]
            else []))
        s =
      .next (((s.tKeyon i m).tKeyoff i).tFreqw i) := by
  obtain ⟨b, hch⟩ := tKeyon_ch s i m
  have hchan : (s.tKeyon i m).chan i = { s.chan i with isReverseLoop := b } := by
    rw [State.chan, hch, Bank.get_set_same]
  have hchan' : ((s.tKeyon i m).tKeyoff i).chan i = { s.chan i with isReverseLoop := b } :=
    (chan_congr (tKeyoff_ch ..) i).trans hchan
  have hon := runAll_ite (c := (s.chan i).keyOn = true ∧ (s.chan i).pcm.index ≠ none) (exec_tKeyon i m s)
      fun hno => by
    obtain ⟨_, hsteps⟩ := unselectedDoesNothing s
    obtain ⟨hkeyon, _⟩ := hsteps i m
    exact hkeyon (by simpa [or_iff_not_imp_left] using hno)
  have hoff := runAll_ite (c := (s.chan i).keyOff = true) (exec_tKeyoff i (s.tKeyon i m)) fun hno => by
    obtain ⟨_, hsteps⟩ := unselectedDoesNothing (s.tKeyon i m)
    obtain ⟨_, hkeyoff, _⟩ := hsteps i m
    exact hkeyoff (by simpa [hchan] using hno)
  have hplain := runAll_ite (c := (s.chan i).keyOn = false ∧ (s.chan i).keyOff = false ∧ (s.chan i).active = true)
      (exec_tFreqw i ((s.tKeyon i m).tKeyoff i)) fun hno => by
    obtain ⟨_, hsteps⟩ := unselectedDoesNothing ((s.tKeyon i m).tKeyoff i)
    obtain ⟨_, _, hfreqw⟩ := hsteps i m
    exact hfreqw (by simpa [hchan', or_iff_not_imp_left] using hno)
  exact (runAll_append_next ((runAll_append_next hon).trans hoff)).trans hplain

theorem tFreq_of_clean {s : State} {i : ChIx} (hfreq : (s.chan i).freqChanged = false) (hon : (s.chan i).keyOn = false)
    (hoff : (s.chan i).keyOff = false) (m : MacroIn) : s.tFreq i m = s := if_neg (by simp [hfreq, hon, hoff])

/-- Step 5 where it is due: the frequency first, then the three sub-steps, then the flags. -/
theorem tFreq_of_due {s : State} {i : ChIx}
    (hdue : (s.chan i).freqChanged = true ∨ (s.chan i).keyOn = true ∨ (s.chan i).keyOff = true) (m : MacroIn) :
    s.tFreq i m =
      ((((s.setChan i { s.chan i with freq := effFreq s.cfg (s.chan i) }).tKeyon i m).tKeyoff i).tFreqw i).modChan i
        fun x => { x with keyOn := false, keyOff := false, freqChanged := false } :=
  if_pos (by simpa [or_assoc] using hdue)

/-- The default of FreqCalc: integer division by the denominator is the floor (43_keyon_keyoff.md R221). -/
theorem freqCalc_specDefault {cfg : Cfg} (h : cfg.freqCalcFn = .specDefault) (c : Chan) :
    freqCalc cfg c = ⌊((c.baseFreq + c.pitch + c.pitch2 : Int) : Rat) * c.freqOffs⌋ := by
  have hquot : ((c.baseFreq + c.pitch + c.pitch2 : Int) : Rat) * c.freqOffs =
      (((c.baseFreq + c.pitch + c.pitch2) * c.freqOffs.num : Int) : Rat) / (c.freqOffs.den : Rat) := by
    rw [Int.cast_mul, mul_div_assoc, Rat.num_div_den]
  rw [hquot, Rat.floor_intCast_div_natCast, freqCalc, h]

/-- Settles O39: nothing due; the frequency and the sub-steps of `runAll_subSteps`; the default of FreqCalc. -/
theorem freqResult : Obligations.FreqResult := by
  refine ⟨?steps, fun cfg c h => freqCalc_specDefault h c⟩
  intro i m s c x
  refine ⟨fun hfreq hon hoff => ?clean, fun hdue => ?due⟩
  case clean => rw [exec_tFreq, tFreq_of_clean hfreq hon hoff]
  case due =>
    have hrun := runAll_subSteps i m (s.setChan i x)
    rw [chan_setChan_same] at hrun
    exact ⟨_, hrun, congrArg Host.Outcome.next (tFreq_of_due hdue m)⟩

/-! ### The flags that the steps leave -/

/-- T.VOL leaves channel i with its volume flag clear, and changes of the channels nothing else but its two results. -/
theorem tVol_ch (s : State) (i : ChIx) :
    ∃ l r, (s.tVol i).ch = s.ch.set i { s.chan i with resLVol := l, resRVol := r, volChanged := false } := by
  by_cases hchanged : (s.chan i).volChanged = true
  · refine ⟨(resultants (s.muted.get i) (s.chan i)).1, (resultants (s.muted.get i) (s.chan i)).2, ?_⟩
    simp [State.tVol, hchanged, apply_ite State.ch]
  · refine ⟨(s.chan i).resLVol, (s.chan i).resRVol, ?_⟩
    rw [State.tVol, if_neg hchanged, ← Bool.eq_false_of_not_eq_true hchanged]
    exact (Bank.set_get ..).symm

/-- T.FILT changes of the channels only the filter flags of its own. -/
theorem tFilt_ch (s : State) (i : ChIx) (m : MacroIn) :
    (s.tFilt i m).ch = s.ch.set i { s.chan i with filterChanged := FilterFlags.all false } := by
  by_cases hchanged : (s.chan i).filterChanged.any = true
  · simp [State.tFilt, hchanged, apply_ite State.ch]
  · have hclean := (FilterFlags.any_eq_false_iff _).1 (Bool.eq_false_of_not_eq_true hchanged)
    rw [State.tFilt, if_neg hchanged, FilterFlags.all, ← hclean]
    exact (Bank.set_get ..).symm

/-- T.ENV changes of the channels only the envelope flags of its own. -/
theorem tEnv_ch (s : State) (i : ChIx) :
    (s.tEnv i).ch = s.ch.set i { s.chan i with envChanged := EnvFlags.all false } := by
  by_cases hchanged : (s.chan i).envChanged.any = true
  · simp [State.tEnv, hchanged, apply_ite State.ch]
  · have hclean := (EnvFlags.any_eq_false_iff _).1 (Bool.eq_false_of_not_eq_true hchanged)
    rw [State.tEnv, if_neg hchanged, EnvFlags.all, ← hclean]
    exact (Bank.set_get ..).symm

/-- The sub-steps of step 5 change of the channels at most the reverse-loop flag of their own. -/
theorem subSteps_ch (s : State) (i : ChIx) (m : MacroIn) :
    ∃ b, (((s.tKeyon i m).tKeyoff i).tFreqw i).ch = s.ch.set i { s.chan i with isReverseLoop := b } := by
  rw [tFreqw_ch, tKeyoff_ch]
  exact tKeyon_ch s i m

theorem keyFlags_of_clear {c : Chan} (hfreq : c.freqChanged = false) (hon : c.keyOn = false) (hoff : c.keyOff = false) :
    { c with keyOn := false, keyOff := false, freqChanged := false } = c := by
  cases c
  simp_all

/-- A second change of a channel, on top of the first. -/
theorem modChan_ch_of_set {t : State} {bank : Bank Chan} {i : ChIx} {c : Chan} (h : t.ch = bank.set i c)
    (f : Chan → Chan) : (t.modChan i f).ch = bank.set i (f c) := by
  rw [State.modChan, State.chan, setChan_ch, h, Bank.get_set_same, Bank.set_set]

/-- T.FREQ leaves channel i with its three flags clear, and changes of the channels nothing else but its frequency and
its reverse-loop flag. -/
theorem tFreq_ch (s : State) (i : ChIx) (m : MacroIn) :
    ∃ f b, (s.tFreq i m).ch =
      s.ch.set i
        { s.chan i with freq := f, isReverseLoop := b, keyOn := false, keyOff := false, freqChanged := false } := by
  by_cases hdue : (s.chan i).freqChanged = true ∨ (s.chan i).keyOn = true ∨ (s.chan i).keyOff = true
  · obtain ⟨b, hsteps⟩ := subSteps_ch (s.setChan i { s.chan i with freq := effFreq s.cfg (s.chan i) }) i m
    refine ⟨effFreq s.cfg (s.chan i), b, ?_⟩
    rw [tFreq_of_due hdue, modChan_ch_of_set hsteps, chan_setChan_same]
    exact Bank.set_set ..
  · simp only [not_or, Bool.not_eq_true] at hdue
    obtain ⟨hfreq, hon, hoff⟩ := hdue
    refine ⟨(s.chan i).freq, (s.chan i).isReverseLoop, ?_⟩
    rw [tFreq_of_clean hfreq hon hoff]
    simp only [keyFlags_of_clear hfreq hon hoff]
    exact (Bank.set_get ..).symm

/-- Steps 2 to 5 of a channel clear each its own flags and none sets one again; the other channels are as they were. -/
theorem stepsAfterMacro_ch (s : State) (i : ChIx) (m : MacroIn) :
    ∃ c, flagsClear c ∧ ((((s.tVol i).tFilt i m).tEnv i).tFreq i m).ch = s.ch.set i c := by
  obtain ⟨l, r, hvol⟩ := tVol_ch s i
  have hfilt := tFilt_ch (s.tVol i) i m
  have henv := tEnv_ch ((s.tVol i).tFilt i m) i
  obtain ⟨f, b, hfreq⟩ := tFreq_ch (((s.tVol i).tFilt i m).tEnv i) i m
  simp only [State.chan, henv, hfilt, hvol, Bank.get_set_same, Bank.set_set] at hfreq
  exact ⟨_, ⟨rfl, rfl, rfl, rfl, rfl, rfl⟩, hfreq⟩

/-- The five steps of a channel leave its flags clear and the other channels as they were. -/
theorem translateChannel_ch (s : State) (isSystemTick : Bool) (i : ChIx) :
    ∃ c, flagsClear c ∧ (s.translateChannel isSystemTick i).ch = s.ch.set i c := by
  let m := (s.nextMacro i isSystemTick).input
  obtain ⟨c, hclear, hch⟩ := stepsAfterMacro_ch ((s.takeMacro i isSystemTick).tMacro i m) i m
  refine ⟨c, hclear, hch.trans ?_⟩
  simp [State.tMacro, State.modChan, takeMacro_eq]

/-- Channels translated in turn: those among them have their flags clear, the others are as they were. -/
theorem foldl_translateChannel (isSystemTick : Bool) (is : List ChIx) (s : State) (j : ChIx) :
    let t := is.foldl (fun t i => t.translateChannel isSystemTick i) s
    (j ∈ is → flagsClear (t.chan j)) ∧ (j ∉ is → t.chan j = s.chan j) := by
  induction is generalizing s with
  | nil => simp
  | cons i is ih =>
    obtain ⟨c, hclear, hch⟩ := translateChannel_ch s isSystemTick i
    obtain ⟨hvisited, hother⟩ := ih (s.translateChannel isSystemTick i)
    refine ⟨fun hj => ?visited, fun hj => ?untouched⟩
    case visited =>
      by_cases hlater : j ∈ is
      · exact hvisited hlater
      · obtain rfl : j = i := (List.mem_cons.1 hj).resolve_right hlater
        rw [List.foldl_cons, hother hlater, State.chan, hch, Bank.get_set_same]
        exact hclear
    case untouched =>
      obtain ⟨hne, hlater⟩ := not_or.1 (mt List.mem_cons.2 hj)
      rw [List.foldl_cons, hother hlater, State.chan, hch, Bank.get_set_ne _ _ hne]
      rfl

theorem mem_visitedChannels (chanMax : BitVec 5) (i : ChIx) :
    i ∈ visitedChannels chanMax ↔ i.val ≤ chanMax.toNat := by
  simp [visitedChannels]

/-- Settles O43: T.FREQ on its channel, and the pass over the channels it visits. -/
theorem passClearsFlags : Obligations.PassClearsFlags := by
  refine ⟨fun i m s => ⟨_, exec_tFreq i m s, ?step⟩,
    fun isSystemTick s => ⟨s.translatorPass isSystemTick, rfl, ?pass⟩⟩
  case step =>
    obtain ⟨f, b, hch⟩ := tFreq_ch s i m
    rw [State.chan, hch, Bank.get_set_same]
    exact ⟨rfl, rfl, rfl⟩
  case pass =>
    intro i
    obtain ⟨hvisited, hother⟩ := foldl_translateChannel isSystemTick (visitedChannels s.chanMax) s i
    rw [mem_visitedChannels] at hvisited hother
    exact ⟨hvisited, fun habove => hother (Nat.not_le.2 habove)⟩

end Sys2Proof.Machine
end

section
/-! PROOFS. Commands that change one channel: what the change makes of the channel, and when it leaves the channel as it
was (44_command_dispatcher.md R253 to R257, R260 to R268). -/

namespace Sys2Proof

/-! ### SetIfChanged with a new value -/

theorem dirtyIf_of_ne {α : Type} [DecidableEq α] {flag : Bool} {old new : α} (h : old ≠ new) :
    dirtyIf flag old new = true := if_neg h

theorem Chan.setPitch_of_ne {c : Chan} {v : Int} (h : c.pitch ≠ v) :
    c.setPitch v = { c with pitch := v, freqChanged := true } := by
  rw [Chan.setPitch, dirtyIf_of_ne h]

theorem Chan.setFilterMode_of_ne {c : Chan} {v : BitVec 2} (h : c.filter.mode ≠ v) :
    c.setFilterMode v = { c with filter.mode := v, filterChanged.mode := true } := by
  rw [Chan.setFilterMode, dirtyIf_of_ne h]

theorem Chan.setK1_of_ne {c : Chan} {v : Half} (h : c.filter.k1 ≠ v) :
    c.setK1 v = { c with filter.k1 := v, filterChanged.k1 := true } := by
  rw [Chan.setK1, dirtyIf_of_ne h]

theorem Chan.setK2_of_ne {c : Chan} {v : Half} (h : c.filter.k2 ≠ v) :
    c.setK2 v = { c with filter.k2 := v, filterChanged.k2 := true } := by
  rw [Chan.setK2, dirtyIf_of_ne h]

theorem Chan.setEcount_of_ne {c : Chan} {v : Half} (h : c.env.ecount ≠ v) :
    c.setEcount v = { c with env.ecount := v, envChanged.ecount := true } := by
  rw [Chan.setEcount, dirtyIf_of_ne h]

theorem Chan.setLVRamp_of_ne {c : Chan} {v : Byte} (h : c.env.lVRamp ≠ v) :
    c.setLVRamp v = { c with env.lVRamp := v, envChanged.lVRamp := true } := by
  rw [Chan.setLVRamp, dirtyIf_of_ne h]

theorem Chan.setRVRamp_of_ne {c : Chan} {v : Byte} (h : c.env.rVRamp ≠ v) :
    c.setRVRamp v = { c with env.rVRamp := v, envChanged.rVRamp := true } := by
  rw [Chan.setRVRamp, dirtyIf_of_ne h]

/-- Two values set under one flag: it is set if either is new. -/
theorem dirtyIf_dirtyIf_of_not_and {α β : Type} [DecidableEq α] [DecidableEq β] {flag : Bool} {a a' : α} {b b' : β}
    (h : ¬ (a = a' ∧ b = b')) : dirtyIf (dirtyIf flag a a') b b' = true := by
  by_cases hb : b = b'
  · rw [hb, dirtyIf_self, dirtyIf_of_ne fun ha => h ⟨ha, hb⟩]
  · exact dirtyIf_of_ne hb

theorem Chan.setK1Ramp_setK1Slow_of_ne {c : Chan} {r : Byte} {b : Bool} (h : ¬ (c.env.k1Ramp = r ∧ c.env.k1Slow = b)) :
    (c.setK1Ramp r).setK1Slow b = { c with env.k1Ramp := r, env.k1Slow := b, envChanged.k1Ramp := true } := by
  simp only [Chan.setK1Ramp, Chan.setK1Slow, dirtyIf_dirtyIf_of_not_and h]

theorem Chan.setK2Ramp_setK2Slow_of_ne {c : Chan} {r : Byte} {b : Bool} (h : ¬ (c.env.k2Ramp = r ∧ c.env.k2Slow = b)) :
    (c.setK2Ramp r).setK2Slow b = { c with env.k2Ramp := r, env.k2Slow := b, envChanged.k2Ramp := true } := by
  simp only [Chan.setK2Ramp, Chan.setK2Slow, dirtyIf_dirtyIf_of_not_and h]

namespace Machine

/-! ### Volumes -/

/-- A byte scaled to the full range of a volume is 257 times the byte, 65535 being 257 times 255. -/
theorem fullScale_eq (v : Byte) : fullScale v = BitVec.ofNat 16 (257 * v.toNat) := by
  have hscale : 0xFFFF * v.toNat / 0xFF = 257 * v.toNat := by omega
  rw [fullScale, hscale]

theorem volumeChan_of_ne {c : Chan} {value : Int} (h : c.vol ≠ clampVol value) :
    volumeChan value c =
      { c with
        vol := clampVol value
        outVol := BitVec.ofNat 16 (257 * (clampVol value).toNat)
        volChanged := true } := by
  simp only [volumeChan, if_pos h, fullScale_eq]

theorem panningChan_of_ne {c : Chan} {value value2 : Int}
    (h : ¬ (c.lVol = clampVol value ∧ c.rVol = clampVol value2)) :
    panningChan value value2 c =
      { c with
        lVol := clampVol value
        rVol := clampVol value2
        outLVol := BitVec.ofNat 16 (257 * (clampVol value).toNat)
        outRVol := BitVec.ofNat 16 (257 * (clampVol value2).toNat)
        volChanged := true } := by
  simp only [panningChan, if_pos (not_and_or.1 h), fullScale_eq]

/-! ### The change as an operation -/

/-- A command on a channel that exists changes that channel and answers 1 (44_command_dispatcher.md R250). -/
theorem onChannel_chanByte (i : ChIx) (s : State) (f : Chan → Chan) :
    onChannel (chanByte i) s f = .next { s with code := some 1, ch := s.ch.set i (f (s.chan i)) } :=
  withChannel_chanByte i _

/-- A command whose change leaves a channel that already holds the value as it is, and makes `changed` of any other. -/
theorem onChannel_ifChanged {i : ChIx} {s : State} {f : Chan → Chan} {holds : Prop} [Decidable holds] {changed : Chan}
    (hsame : holds → f (s.chan i) = s.chan i) (hchanged : ¬ holds → f (s.chan i) = changed) :
    onChannel (chanByte i) s f =
      .next { s with code := some 1, ch := s.ch.set i (if holds then s.chan i else changed) } := by
  rw [onChannel_chanByte]
  split
  case isTrue h => rw [hsame h]
  case isFalse h => rw [hchanged h]

/-- Settles O46: three changes of one channel, and none. -/
theorem plainCommands : Obligations.PlainCommands := fun i _ _ s =>
  ⟨onChannel_chanByte i s _, onChannel_chanByte i s _,
    onChannel_ifChanged Chan.setPitch_of_eq Chan.setPitch_of_ne, rfl⟩

/-- Settles O47: one setter of a field and its flag each. -/
theorem filterCommands : Obligations.FilterCommands := fun _ _ _ =>
  ⟨onChannel_ifChanged Chan.setFilterMode_of_eq Chan.setFilterMode_of_ne,
    onChannel_ifChanged Chan.setK1_of_eq Chan.setK1_of_ne,
    onChannel_ifChanged Chan.setK2_of_eq Chan.setK2_of_ne⟩

/-- Settles O48: one setter each, or for a ramp with a slow bit two under the flag of the ramp. -/
theorem envelopeCommands : Obligations.EnvelopeCommands := fun _ _ _ _ =>
  ⟨onChannel_ifChanged Chan.setEcount_of_eq Chan.setEcount_of_ne,
    onChannel_ifChanged Chan.setLVRamp_of_eq Chan.setLVRamp_of_ne,
    onChannel_ifChanged Chan.setRVRamp_of_eq Chan.setRVRamp_of_ne,
    onChannel_ifChanged (fun h => Chan.setK1Ramp_setK1Slow_of_eq h.1 h.2) Chan.setK1Ramp_setK1Slow_of_ne,
    onChannel_ifChanged (fun h => Chan.setK2Ramp_setK2Slow_of_eq h.1 h.2) Chan.setK2Ramp_setK2Slow_of_ne⟩

/-- Settles O49: the clamped operands held already, or new. -/
theorem volumeAndPanning : Obligations.VolumeAndPanning := fun _ _ _ _ =>
  ⟨onChannel_ifChanged volumeChan_of_eq volumeChan_of_ne,
    onChannel_ifChanged (fun h => panningChan_of_eq h.1 h.2) panningChan_of_ne⟩

end Machine

end Sys2Proof
end

section
/-! PROOFS. PORTA: one step toward the target, and as many as cover the distance (44_command_dispatcher.md R258). -/

namespace Sys2Proof.Machine

/-! ### One step -/

theorem portaStep_up_reaches {base speed dest : Int} (hup : base < dest) (hcross : dest ≤ base + speed) :
    portaStep base speed dest = (dest, true) := by
  rw [portaStep, if_pos hup, if_pos hcross]

theorem portaStep_up_short {base speed dest : Int} (hup : base < dest) (hshort : base + speed < dest) :
    portaStep base speed dest = (base + speed, false) := by
  rw [portaStep, if_pos hup, if_neg (Int.not_le.2 hshort)]

theorem portaStep_down_reaches {base speed dest : Int} (hdown : dest ≤ base) (hcross : base - speed ≤ dest) :
    portaStep base speed dest = (dest, true) := by
  rw [portaStep, if_neg (Int.not_lt.2 hdown), if_pos hcross]

theorem portaStep_down_short {base speed dest : Int} (hdown : dest ≤ base) (hshort : dest < base - speed) :
    portaStep base speed dest = (base - speed, false) := by
  rw [portaStep, if_neg (Int.not_lt.2 hdown), if_neg (Int.not_le.2 hshort)]

/-- A step that spans the distance reaches the target, from either side. -/
theorem portaStep_reaches {base speed dest : Int} (habove : dest - base ≤ speed) (hbelow : base - dest ≤ speed) :
    portaStep base speed dest = (dest, true) := by
  obtain hup | hdown := Int.lt_or_le base dest
  · exact portaStep_up_reaches hup (by omega)
  · exact portaStep_down_reaches hdown (by omega)

/-- A step takes its speed off the distance to the target, never passing it. -/
theorem portaStep_closer {base speed dest rest : Int} (hrest : 0 ≤ rest) (habove : dest - base ≤ rest + speed)
    (hbelow : base - dest ≤ rest + speed) :
    dest - (portaStep base speed dest).1 ≤ rest ∧ (portaStep base speed dest).1 - dest ≤ rest := by
  obtain hup | hdown := Int.lt_or_le base dest
  · obtain hcross | hshort := le_or_gt dest (base + speed)
    · rw [portaStep_up_reaches hup hcross]
      dsimp only
      omega
    · rw [portaStep_up_short hup hshort]
      dsimp only
      omega
  · obtain hcross | hshort := le_or_gt (base - speed) dest
    · rw [portaStep_down_reaches hdown hcross]
      dsimp only
      omega
    · rw [portaStep_down_short hdown hshort]
      dsimp only
      omega

/-! ### As an operation -/

/-- The state after one portamento step of channel i. -/
def State.portaTo (s : State) (i : ChIx) (freq : Int) (reached : Bool) : State :=
  { s with
    code := some (if reached then 2 else 1)
    ch := s.ch.set i { s.chan i with baseFreq := freq, freqChanged := true, inPorta := !reached } }

@[simp] theorem portaTo_cfg (s : State) (i : ChIx) (freq : Int) (reached : Bool) :
    (s.portaTo i freq reached).cfg = s.cfg := rfl

@[simp] theorem portaTo_code (s : State) (i : ChIx) (freq : Int) (reached : Bool) :
    (s.portaTo i freq reached).code = some (if reached then 2 else 1) := rfl

@[simp] theorem portaTo_chan (s : State) (i : ChIx) (freq : Int) (reached : Bool) :
    (s.portaTo i freq reached).chan i =
      { s.chan i with baseFreq := freq, freqChanged := true, inPorta := !reached } :=
  Bank.get_set_same ..

theorem exec_porta {i : ChIx} {speed target : Word} {s : State} {freq : Int} {reached : Bool}
    (h : portaStep (s.chan i).baseFreq speed.toInt (noteFreq s.cfg target.toInt) = (freq, reached)) :
    exec (.porta (chanByte i) speed target) s = .next (s.portaTo i freq reached) := by
  simp only [exec, execPorta, withChannel_chanByte, h]
  rfl

/-! ### As many steps as cover the distance -/

/-- With a speed that is not negative, n + 1 steps that together cover the distance end at the target. -/
theorem porta_reaches {i : ChIx} {speed target : Word} {n : Nat} {s : State} (hspeed : 0 ≤ speed.toInt)
    (habove : noteFreq s.cfg target.toInt - (s.chan i).baseFreq ≤ (n + 1 : Nat) * speed.toInt)
    (hbelow : (s.chan i).baseFreq - noteFreq s.cfg target.toInt ≤ (n + 1 : Nat) * speed.toInt) :
    ∃ t, runAll (List.replicate (n + 1) (.porta (chanByte i) speed target)) s = .next t ∧
      (t.chan i).baseFreq = noteFreq s.cfg target.toInt ∧ (t.chan i).inPorta = false ∧ t.code = some 2 := by
  induction n generalizing s with
  | zero =>
    have hstep := portaStep_reaches (by simpa using habove) (by simpa using hbelow)
    exact ⟨_, runAll_cons_next (exec_porta hstep), by simp, by simp, rfl⟩
  | succ n ih =>
    have hdistance : ((n + 1 + 1 : Nat) : Int) * speed.toInt = (n + 1 : Nat) * speed.toInt + speed.toInt := by
      push_cast; ring
    obtain ⟨hcloser, hcloser'⟩ :=
      portaStep_closer (by positivity) (hdistance ▸ habove) (hdistance ▸ hbelow)
    obtain ⟨t, hrun, ht⟩ := ih (s := s.portaTo i _ _) (by simpa using hcloser) (by simpa using hcloser')
    exact ⟨t, (runAll_cons_next (exec_porta rfl)).trans hrun, ht⟩

/-- Settles O50: the four cases of one step, and the induction on the number of steps. -/
theorem portaResult : Obligations.PortaResult := by
  intro i speed target s c dest up down after
  refine ⟨fun hup hcross => ?upReaches, fun hup hshort => ?upShort, fun hdown hcross => ?downReaches,
    fun hdown hshort => ?downShort, fun n hspeed hn habove hbelow => ?bounded⟩
  case upReaches => exact exec_porta (portaStep_up_reaches hup hcross)
  case upShort => exact exec_porta (portaStep_up_short hup hshort)
  case downReaches => exact exec_porta (portaStep_down_reaches hdown hcross)
  case downShort => exact exec_porta (portaStep_down_short hdown hshort)
  case bounded =>
    obtain ⟨n, rfl⟩ := Nat.exists_eq_add_one_of_ne_zero hn.ne'
    exact porta_reaches hspeed.le habove hbelow

end Sys2Proof.Machine
end

section
/-! PROOFS. NOTE_ON: how the sample is resolved, and what a valid one or none makes of the channel
(44_command_dispatcher.md R252, R269). -/

namespace Sys2Proof.Machine

/-! ### The sample -/

/-- The sample and the frequency that NOTE_ON resolves: the instrument's own at 8363 Hz, or those of the note map. -/
theorem resolveSample_iff (ins : Instrument) (n : Int) (k : Nat) (freq : Rat) :
    (resolveSample ins n).1 = some k ∧ (resolveSample ins n).2.getD 8363 = freq ↔
      ins.useNoteMap = false ∧ ins.initSample = some k ∧ freq = 8363 ∨
      ins.useNoteMap = true ∧ ins.noteMap.lookup n = some (k, freq) := by
  cases hmap : ins.useNoteMap with
  | false => simp [resolveSample, hmap, eq_comm]
  | true => cases hlookup : ins.noteMap.lookup n <;> simp [resolveSample, hmap, hlookup, Prod.ext_iff]

/-- The playback region, its positions spelled out in units of 2^11 (44_command_dispatcher.md R269). -/
theorem sampleRegion_eq (cfg : Cfg) (k : Nat) (smp : Sample) :
    let position (p : Nat) : Word := BitVec.ofNat 32 (p * 2 ^ 11)
    let start := position (smp.offset % 2 ^ 21)
    sampleRegion cfg k smp =
      { index := some k
        start := start
        endAddr := start + position (smp.length - 1)
        loopStart := (start + position smp.loopStart) &&& cfg.loopStartMask
        loopEnd := (start + position (max smp.loopEnd 1 - 1)) &&& cfg.loopEndMask
        length := smp.length
        bank := BitVec.ofNat 2 (smp.offset / 2 ^ 21)
        reversed := smp.reversed
        loopMode := smp.loopMode } := by
  simp only [sampleRegion, samplePosition, Nat.shiftLeft_eq, Nat.shiftRight_eq_div_pow]

/-! ### The channel -/

section

variable {cfg : Cfg} {st : Stores} {ins : Instrument} {n : Int}

theorem assignSample_of_valid {k : Nat} {smp : Sample} (hindex : (resolveSample ins n).1 = some k)
    (hsample : sampleStore st k = some smp) (hlength : smp.length ≠ 0) (c : Chan) :
    assignSample cfg st ins n c =
      { c with freqOffs := rateOffset cfg ((resolveSample ins n).2.getD 8363) smp.centerRate n
               pcm := sampleRegion cfg k smp, filter := ins.filterPreset, env := ins.envPreset } := by
  simp only [assignSample, hindex, Option.bind_some, hsample, if_neg hlength]

theorem assignSample_of_invalid
    (hinvalid : ∀ k smp, (resolveSample ins n).1 = some k → sampleStore st k = some smp → smp.length = 0) (c : Chan) :
    assignSample cfg st ins n c =
      { c with pcm.index := none, filter := cfg.filterDefault, env := cfg.envDefault } := by
  cases hindex : (resolveSample ins n).1 with
  | none => simp only [assignSample, hindex]
  | some k =>
    cases hsample : sampleStore st k with
    | none => simp only [assignSample, hindex, Option.bind_some, hsample]
    | some smp => simp only [assignSample, hindex, Option.bind_some, hsample, if_pos (hinvalid k smp hindex hsample)]

end

/-! ### The command -/

/-- NOTE_ON on a channel that exists, behind whatever its sample makes of the channel. -/
theorem exec_noteOn {i : ChIx} {note : Word} {s : State} {c : Chan}
    (h : assignSample s.cfg s.stores (insStore s.stores (s.chan i).ins) note.toInt (s.chan i) = c) :
    exec (.noteOn (chanByte i) note) s =
      .next { s with
              code := some 1
              ch := s.ch.set i
                { c.markAll with
                  k1Offs := 0, k2Offs := 0, note := note.toInt, baseFreq := noteFreq s.cfg note.toInt, active := true
                  keyOn := true, cursor := Config.macroInit (insStore s.stores (s.chan i).ins) } } := by
  subst h
  exact onChannel_chanByte i s _

/-- Settles O45: a valid sample, resolved one way or the other, and none. -/
theorem noteOnResult : Obligations.NoteOnResult := by
  intro i note s c n ins resolves x position
  refine ⟨fun k freq smp hresolves hsample hlength => ?valid, fun hinvalid => ?invalid⟩
  case valid =>
    obtain ⟨hindex, hfreq⟩ := (resolveSample_iff ins n k freq).2 hresolves
    have hassign := assignSample_of_valid (cfg := s.cfg) hindex hsample hlength c
    rw [hfreq, sampleRegion_eq] at hassign
    exact exec_noteOn hassign
  case invalid =>
    exact exec_noteOn <| assignSample_of_invalid
      (fun k smp hindex => hinvalid k _ smp ((resolveSample_iff ins n k _).1 ⟨hindex, rfl⟩)) c

end Sys2Proof.Machine
end

section
/-! PROOFS. SAMPLE_POS, and what any command may change: its own channel, or for SAMPLE_POS the queue
(44_command_dispatcher.md R250, R259, R268). -/

namespace Sys2Proof.Machine

/-! ### SAMPLE_POS -/

theorem seekValid_iff (p : Pcm) (pos : Int) : seekValid p pos = true ↔ p.index ≠ none ∧ 0 ≤ pos ∧ pos < p.length := by
  simp [seekValid, Option.isSome_iff_ne_none, and_assoc]

theorem seekAddr_eq (p : Pcm) (pos : Nat) :
    seekAddr p pos =
      if p.reversed then p.endAddr - BitVec.ofNat 32 (pos * 2 ^ 11) else p.start + BitVec.ofNat 32 (pos * 2 ^ 11) := by
  simp only [seekAddr, samplePosition, Nat.shiftLeft_eq]

theorem exec_samplePos (i : ChIx) (value : Word) (s : State) :
    exec (.samplePos (chanByte i) value) s =
      .next ((if seekValid (s.chan i).pcm value.toInt then
        s.writeB i s.cfg.regAccum (seekAddr (s.chan i).pcm value.toInt.toNat) else s).setCode 1) := by
  simp only [exec, execSamplePos, withChannel_chanByte]

/-- Settles O51: the write is queued before the answer, or nothing is. -/
theorem samplePosResult : Obligations.SamplePosResult := by
  intro i value s p offset inside
  have hvalid : seekValid p value.toInt = true ↔ inside := seekValid_iff p value.toInt
  refine ⟨fun hinside => ?seek, fun houtside => ?ignored⟩
  case seek =>
    refine ⟨_, exec_regWrite (pgB_le s.cfg i) _ _ s, ?_⟩
    rw [exec_samplePos, if_pos (hvalid.2 hinside), seekAddr_eq]
    rfl
  case ignored =>
    rw [exec_samplePos, if_neg (mt hvalid.1 houtside)]
    rfl

/-! ### What a command may change -/

/-- The ways a command may act: it changes its own channel and answers 1, or 2 for PORTA; it is SAMPLE_POS and queues
writes; or it only answers 1. -/
inductive CommandChanges (cmd : Cmd) (s : State) : State → Prop where
  | channel (i : ChIx) (f : Chan → Chan) (n : Nat) (hi : i.val = cmd.channel.toNat)
      (hcode : n = 1 ∨ n = 2 ∧ cmd.kind = 0x07) : CommandChanges cmd s ((s.modChan i f).setCode n)
  | queue (u : State) (hkind : cmd.kind = 0x08) (hqueue : QueuesOnly s u) : CommandChanges cmd s (u.setCode 1)
  | none : CommandChanges cmd s (s.setCode 1)

theorem onChannel_changes {cmd : Cmd} {s t : State} {f : Chan → Chan} (h : onChannel cmd.channel s f = .next t) :
    CommandChanges cmd s t := by
  obtain ⟨i, hi, rfl⟩ := onChannel_next h
  exact .channel i f 1 hi (.inl rfl)

theorem execPorta_changes {cmd : Cmd} {s t : State} (hkind : cmd.kind = 0x07)
    (h : execPorta cmd.channel cmd.value cmd.value2 s = .next t) : CommandChanges cmd s t := by
  obtain ⟨i, hi, hnext⟩ := withChannel_next h
  cases hnext
  refine .channel i _ _ hi ?_
  split
  · exact .inr ⟨rfl, hkind⟩
  · exact .inl rfl

theorem execSamplePos_changes {cmd : Cmd} {s t : State} (hkind : cmd.kind = 0x08)
    (h : execSamplePos cmd.channel cmd.value s = .next t) : CommandChanges cmd s t := by
  obtain ⟨i, _, hnext⟩ := withChannel_next h
  cases hnext
  refine .queue _ hkind ?_
  split
  · exact writeB_queuesOnly s i _ _
  · exact QueuesOnly.refl s

theorem execDispatch_changes {cmd : Cmd} {s t : State} (h : execDispatch cmd s = .next t) : CommandChanges cmd s t := by
  unfold execDispatch at h
  split at h
  case h_7 hkind => exact execPorta_changes (BitVec.eq_of_toNat_eq hkind) h
  case h_8 hkind => exact execSamplePos_changes (BitVec.eq_of_toNat_eq hkind) h
  case h_17 => cases h; exact .none
  all_goals exact onChannel_changes h

theorem mem_knownKinds_of_toNat {kind : Byte} {n : Nat} (hkind : kind.toNat = n)
    (hmem : n ∈ knownKinds.map BitVec.toNat) : kind ∈ knownKinds := by
  obtain ⟨k, hk, rfl⟩ := List.mem_map.1 hmem
  exact BitVec.eq_of_toNat_eq hkind ▸ hk

/-- A kind that no command has is NOP_CMD (44_command_dispatcher.md R268). -/
theorem execDispatch_of_unknown {cmd : Cmd} (hkind : cmd.kind ∉ knownKinds) (s : State) :
    execDispatch cmd s = .next (s.setCode 1) := by
  unfold execDispatch
  split
  case h_17 => rfl
  all_goals exact absurd (mem_knownKinds_of_toNat ‹_› (by decide)) hkind

/-! ### Frames of the ways a command may act -/

section

variable {cmd : Cmd} {s t : State}

theorem CommandChanges.otherChannels (h : CommandChanges cmd s t) {j : ChIx} (hj : j.val ≠ cmd.channel.toNat) :
    t.chan j = s.chan j := by
  cases h with
  | channel i f n hi => exact chan_setChan_ne s _ fun hji => hj (hji ▸ hi)
  | queue u hkind hqueue =>
    obtain ⟨p, ws, rfl, _, _⟩ := hqueue
    rfl
  | none => rfl

theorem CommandChanges.answers (h : CommandChanges cmd s t) :
    t.code = some 1 ∨ t.code = some 2 ∧ cmd.kind = 0x07 := by
  cases h with
  | channel i f n hi hcode => exact hcode.imp (congrArg some) (And.imp_left (congrArg some))
  | queue | none => exact .inl rfl

theorem CommandChanges.frame (h : CommandChanges cmd s t) :
    { t with ch := s.ch, code := s.code, lq := s.lq, curPage := s.curPage } = s := by
  cases h with
  | queue u hkind hqueue =>
    obtain ⟨p, ws, rfl, _, _⟩ := hqueue
    rfl
  | channel | none => rfl

theorem CommandChanges.queue_eq (h : CommandChanges cmd s t) (hkind : cmd.kind ≠ 0x08) :
    t.lq = s.lq ∧ t.curPage = s.curPage := by
  cases h with
  | queue u hseek => exact absurd hseek hkind
  | channel | none => exact ⟨rfl, rfl⟩

end

/-- Settles O52: the frames of the ways a command may act, and the unrecognised kind. -/
theorem commandsTouchOnlyTheirChannel : Obligations.CommandsTouchOnlyTheirChannel := by
  intro cmd s t h
  have hchanges : CommandChanges cmd s t := execDispatch_changes h
  refine ⟨fun _ => hchanges.otherChannels, hchanges.answers, hchanges.frame, hchanges.queue_eq, fun hkind => ?_⟩
  exact Host.Outcome.next.inj (h.symm.trans (execDispatch_of_unknown hkind s))

end Sys2Proof.Machine
end

section
/-! PROOFS. RESET and the host's settings: mutes, channel counts, RESYNC, skipWrites, the log, raw writes
(45_device_facade.md R290, R302 to R306, R308, R309). -/

namespace Sys2Proof.Machine

/-! ### RESET -/

/-- On the page of the shadow a write needs no page select (40_bus_queue.md R135). -/
theorem pgWriteM_of_shadow {s : State} {p : Byte} (hpage : s.curPage = p) (pm : Byte) (r : BitVec 4) (v m d : Word) :
    s.pgWriteM p pm r v m d = s.enqw r v m d := by
  simp [State.pgWriteM, State.pageSel, State.needsSwitch, hpage]

/-- The two writes of RESET, once the shadow is on page 0: no page select stands between them. -/
theorem resetWrites_eq {s : State} (hpage : s.curPage = 0) (page r : BitVec 4) (pm : Byte) (v : Word) :
    (s.enqw page 0 allBits 0).pgWriteM 0 pm r v allBits 0 =
      { s with lq := if s.skipWrites then s.lq
                     else s.lq ++ [⟨.write 0, page, allBits, 0⟩, ⟨.write v, r, allBits, 0⟩] } := by
  by_cases hskip : s.skipWrites = true
  case pos => rw [enqw_of_skipWrites hskip, pgWriteM_of_shadow hpage, enqw_of_skipWrites hskip, if_pos hskip]
  case neg =>
    have hwrites : s.skipWrites = false := by simpa using hskip
    rw [enqw_of_not_skipWrites hwrites, pgWriteM_of_shadow (by exact hpage), enqw_of_not_skipWrites (by exact hwrites),
      if_neg hskip]
    simp only [List.append_assoc, List.cons_append, List.nil_append]

/-- Settles O13: everything is set as R290 lists it, and then the two writes are queued. -/
theorem resetResult : Obligations.ResetResult :=
  fun s => congrArg Host.Outcome.next (resetWrites_eq (s := s.cleared) rfl s.cfg.regPage s.cfg.regActv s.cfg.pmGlobal _)

/-! ### SETCHAN, MUTE, RESYNC -/

theorem exec_mute_of_lt (i : ChIx) (b : Bool) (s : State) :
    exec (.mute (BitVec.ofNat 32 i.val) b) s =
      .next { s with muted := s.muted.set i b, trace := s.trace ++ [.setMute i b] } := by
  have hindex : (BitVec.ofNat 32 i.val).toNat = i.val := by
    rw [BitVec.toNat_ofNat]
    omega
  simp only [exec, execMute, hindex, i.isLt, dif_pos, Fin.eta]
  rfl

theorem exec_mute_of_not_lt {index : Word} (hout : 31 < index.toNat) (b : Bool) (s : State) :
    exec (.mute index b) s = .refused .channelOutOfRange :=
  dif_neg (by omega)

/-- Settles O56: SETCHAN is a page-addressed write behind the new counts, MUTE has a channel or none. -/
theorem setchanMuteResync : Obligations.SetchanMuteResync := by
  refine ⟨fun n s => ⟨s.setChannels (n.setWidth 5), ?count, rfl⟩, exec_mute_of_lt,
    fun index b s hout => exec_mute_of_not_lt hout b s, fun s => rfl⟩
  case count =>
    rw [exec_pgwritem]
    exact (withPage_setWidth 0 _).trans (withAddress_setWidth ..)

/-! ### Settings and names -/

/-- Settles O58: each of the three is one update of the state. -/
theorem settingsAndEffectName : Obligations.SettingsAndEffectName :=
  fun _ _ _ => ⟨rfl, rfl, rfl⟩

/-! ### Raw writes -/

theorem exec_rawwrite (addr v : Word) (s : State) :
    exec (.rawwrite addr v) s = withAddress addr fun a => .next (s.enqw a v allBits 0) := rfl

theorem rawWrites_cons (s : State) (p : Word × Word) (ps : List (Word × Word)) :
    s.rawWrites (p :: ps) = (s.enqw (p.1.setWidth 4) p.2 allBits 0).rawWrites ps := rfl

theorem rawWrites_of_skipWrites {s : State} (hskip : s.skipWrites = true) (ps : List (Word × Word)) :
    s.rawWrites ps = s := by
  induction ps with
  | nil => rfl
  | cons p ps ih => rw [rawWrites_cons, enqw_of_skipWrites hskip, ih]

theorem rawWrites_of_not_skipWrites {s : State} (hskip : s.skipWrites = false) (ps : List (Word × Word)) :
    s.rawWrites ps =
      { s with lq := s.lq ++ ps.map fun p => ⟨.write p.2, p.1.setWidth 4, allBits, 0⟩ } := by
  induction ps generalizing s with
  | nil => rw [List.map_nil, List.append_nil]; rfl
  | cons p ps ih =>
    rw [rawWrites_cons, enqw_of_not_skipWrites hskip, ih (by exact hskip)]
    simp only [List.map_cons, List.append_assoc, List.singleton_append]

theorem exec_rawbatch_of_legal {ps : List (Word × Word)} (hlegal : ∀ p ∈ ps, p.1.toNat ≤ 15) (s : State) :
    exec (.rawbatch ps) s = .next (s.rawWrites ps) :=
  if_pos (by simpa using hlegal)

theorem exec_rawbatch_of_illegal {ps : List (Word × Word)} (hout : ∃ p ∈ ps, 15 < p.1.toNat) (s : State) :
    exec (.rawbatch ps) s = .refused .addressOutOfRange :=
  if_neg (by simpa using hout)

/-- A four-bit address, widened to an operand, is legal. -/
theorem toNat_setWidth_address_le (a : BitVec 4) : (a.setWidth 32).toNat ≤ 15 := by
  rw [BitVec.toNat_setWidth]
  omega

/-- Settles O57: one write or a list of them, let through or skipped, and an address out of range. -/
theorem rawWrites : Obligations.RawWrites := by
  refine ⟨fun a v s => ?one, fun addr v s hout => ?oneRefused, fun ps s => ?batch,
    fun ps s hout => exec_rawbatch_of_illegal hout s⟩
  case one => rw [exec_rawwrite, withAddress_setWidth]; rfl
  case oneRefused => rw [exec_rawwrite, withAddress_out hout]
  case batch =>
    have hlegal : ∀ q ∈ ps.map fun p => (p.1.setWidth 32, p.2), q.1.toNat ≤ 15 := by
      simp only [List.forall_mem_map]
      exact fun p _ => toNat_setWidth_address_le p.1
    rw [exec_rawbatch_of_legal hlegal]
    by_cases hskip : s.skipWrites = true
    case pos => rw [rawWrites_of_skipWrites hskip, if_pos hskip]
    case neg =>
      rw [rawWrites_of_not_skipWrites (by simpa using hskip), if_neg hskip, List.map_map]
      simp [Function.comp_def]

end Sys2Proof.Machine
end

section
/-! PROOFS. DISPATCH is the command that its kind selects (45_device_facade.md R301, 30_encoding.md R106). -/

namespace Sys2Proof.Machine

theorem decodeCmd_of_unknown {cmd : Cmd} (hkind : cmd.kind ∉ knownKinds) : decodeCmd cmd = .nopCmd cmd := by
  unfold decodeCmd
  split
  case h_17 => rfl
  all_goals exact absurd (mem_knownKinds_of_toNat ‹_› (by decide)) hkind

/-- A result that is a refusal exactly when the channel does not exist (60_exceptions.md R321). -/
def AnswersOnChannel (ch : Byte) (r : Result State) : Prop :=
  (31 < ch.toNat → r = .refused .channelOutOfRange) ∧ (ch.toNat ≤ 31 → ∃ t, r = .next t)

theorem withChannel_answers (ch : Byte) {k : ChIx → Result State} (hk : ∀ i, ∃ t, k i = .next t) :
    AnswersOnChannel ch (withChannel ch k) := by
  refine ⟨fun hout => withChannel_out hout k, fun hch => ?_⟩
  rw [withChannel_of_val (i := ⟨ch.toNat, Nat.lt_succ_of_le hch⟩) rfl]
  exact hk _

theorem onChannel_answers (ch : Byte) (s : State) (f : Chan → Chan) : AnswersOnChannel ch (onChannel ch s f) :=
  withChannel_answers ch fun _ => ⟨_, rfl⟩

theorem execPorta_answers (ch : Byte) (value value2 : Word) (s : State) :
    AnswersOnChannel ch (execPorta ch value value2 s) :=
  withChannel_answers ch fun _ => ⟨_, rfl⟩

theorem execSamplePos_answers (ch : Byte) (value : Word) (s : State) :
    AnswersOnChannel ch (execSamplePos ch value s) :=
  withChannel_answers ch fun _ => ⟨_, rfl⟩

/-- A recognised kind is the command of that kind. -/
theorem dispatch_of_known {cmd : Cmd} (hkind : cmd.kind ∈ knownKinds) (s : State) :
    exec (.dispatch cmd) s = exec (decodeCmd cmd) s ∧ AnswersOnChannel cmd.channel (exec (.dispatch cmd) s) := by
  obtain ⟨kind, ch, value, value2⟩ := cmd
  simp only [knownKinds, List.mem_cons, List.not_mem_nil, or_false] at hkind
  obtain rfl | rfl | rfl | rfl | rfl | rfl | rfl | rfl | rfl | rfl | rfl | rfl | rfl | rfl | rfl | rfl := hkind
  all_goals refine ⟨rfl, ?_⟩
  any_goals exact onChannel_answers ch s _
  · exact execPorta_answers ch value value2 s
  · exact execSamplePos_answers ch value s

/-- Settles O54: a recognised kind answers on its channel, any other is NOP_CMD. -/
theorem dispatchIsItsCommand : Obligations.DispatchIsItsCommand := by
  intro cmd s
  by_cases hkind : cmd.kind ∈ knownKinds
  case pos =>
    obtain ⟨hcmd, hrefused, hnext⟩ := dispatch_of_known hkind s
    exact ⟨hcmd, fun _ => hrefused, fun h => hnext (h.resolve_left (not_not_intro hkind))⟩
  case neg =>
    have hnop : exec (.dispatch cmd) s = .next (s.setCode 1) := execDispatch_of_unknown hkind s
    refine ⟨?_, fun h => absurd h hkind, fun _ => ⟨_, hnop⟩⟩
    rw [hnop, decodeCmd_of_unknown hkind]
    rfl

end Sys2Proof.Machine
end

section
/-! PROOFS. GENERATE: the events of a tick as operations, one sample, and two runs of samples joined
(45_device_facade.md R295). -/

namespace Sys2Proof.Machine

/-! ### The tick and its events -/

theorem nextTick_of_scripted {s : State} {d : DevTick} {rest : List DevTick} (h : s.tickIn = d :: rest) :
    s.nextTick = d := by
  simp [State.nextTick, h]

theorem nextTick_of_free {s : State} (h : s.tickIn = []) : s.nextTick = Config.devTick s.freeCtr := by
  simp [State.nextTick, h]

theorem takeTick_of_scripted {s : State} {d : DevTick} {rest : List DevTick} (h : s.tickIn = d :: rest) :
    s.takeTick = { s with tickIn := rest, trace := s.trace ++ [.tick] } := by
  simp [takeTick_eq, h]

theorem takeTick_of_free {s : State} (h : s.tickIn = []) :
    s.takeTick = { s with freeCtr := s.freeCtr + 1, trace := s.trace ++ [.tick] } := by
  simp [takeTick_eq, h]

theorem exec_eventInstr (e : DevEvent) (s : State) : exec (eventInstr e) s = .next (s.devEvent e) := by
  cases e <;> rfl

theorem runAll_eventInstr (es : List DevEvent) (s : State) :
    runAll (es.map eventInstr) s = .next (es.foldl State.devEvent s) := by
  induction es generalizing s with
  | nil => rfl
  | cons e es ih => exact (runAll_cons_next (exec_eventInstr e s)).trans (ih _)

/-- The events of a tick write no pair. -/
theorem devEvents_samples (es : List DevEvent) (s : State) : (es.foldl State.devEvent s).samples = s.samples := by
  obtain ⟨acc, pool, _, hwatched⟩ := devEvents_busChanges s es
  exact congrArg Watched.samples hwatched

/-! ### One sample -/

/-- The pair of the next tick, at buffer index `k`. -/
def State.pairAt (s : State) (k : Nat) : StereoSample :=
  ⟨k, outSample s.nextTick.left, outSample s.nextTick.right⟩

/-- LQ expanded and the next tick taken, its events not yet handled. -/
def State.tickTaken (s : State) : State :=
  { s.takeTick with samples := [], lq := [], pq := s.pq ++ s.lq.flatMap expandLT }

theorem takeTick_expand_noPairs (s : State) : { s with samples := [] }.expand.takeTick = s.tickTaken := by
  simp only [State.tickTaken, takeTick_eq]
  rfl

/-- A sample: the events of the next tick handled, and its pair behind the pairs already there. -/
theorem sample_eq (s : State) (k : Nat) :
    s.sample k =
      { s.nextTick.events.foldl State.devEvent s.expand.takeTick with samples := s.samples ++ [s.pairAt k] } := by
  have hkept : (s.nextTick.events.foldl State.devEvent s.expand.takeTick).samples = s.samples := by
    rw [devEvents_samples, takeTick_eq, expand_samples]
  rw [← hkept]
  rfl

theorem exec_generate (offset n : Word) (s : State) :
    exec (.generate offset n) s = .next ({ s with samples := [] }.generateFrom offset.toNat n.toNat) := rfl

/-- GENERATE of one sample, its events run as operations. -/
theorem generate_one (offset : Word) (s : State) :
    ∃ u, runAll (s.nextTick.events.map eventInstr) s.tickTaken = .next u ∧
      exec (.generate offset 1) s = .next { u with samples := [s.pairAt offset.toNat] } := by
  refine ⟨_, runAll_eventInstr .., congrArg Host.Outcome.next ((sample_eq { s with samples := [] } _).trans ?_)⟩
  rw [takeTick_expand_noPairs]
  rfl

/-! ### The pairs of an earlier run -/

/-- The state with pairs of an earlier run ahead of its own; no operation reads a pair. -/
def State.behindPairs (s : State) (earlier : List StereoSample) : State := { s with samples := earlier ++ s.samples }

section
variable (s : State) (earlier : List StereoSample)

theorem behindPairs_pgWriteM (p pm : Byte) (r : BitVec 4) (v m d : Word) :
    (s.behindPairs earlier).pgWriteM p pm r v m d = (s.pgWriteM p pm r v m d).behindPairs earlier := by
  simp only [pgWriteM_eq, apply_ite (State.behindPairs · earlier)]
  rfl

theorem behindPairs_reverseFlip (c : ChIx) :
    (s.behindPairs earlier).reverseFlip c = (s.reverseFlip c).behindPairs earlier :=
  congrArg (State.modChan · c fun x => { x with isReverseLoop := false }) (behindPairs_pgWriteM s earlier ..)

theorem behindPairs_irqService : (s.behindPairs earlier).irqService = s.irqService.behindPairs earlier := by
  cases hread : s.wasRead
  case false => rw [irqService_noRead hread]; exact irqService_noRead hread
  case true =>
    cases hlatch : s.irqLatched
    case false => rw [irqService_notLatched hread hlatch]; exact irqService_notLatched hread hlatch
    case true =>
      rw [irqService_latched hread hlatch, apply_ite (State.behindPairs · earlier), ← behindPairs_reverseFlip]
      exact irqService_latched (s := s.behindPairs earlier) hread hlatch

theorem behindPairs_busPhase : (s.behindPairs earlier).busPhase = s.busPhase.behindPairs earlier := by
  obtain ⟨hc, h⟩ | ⟨hc, hq, h⟩ | ⟨w, rest, hc, hq, ⟨d, hw, h⟩ | ⟨v, hw, ⟨hm, h⟩ | ⟨hm, hv, h⟩ | ⟨hm, hv, h⟩⟩⟩ :=
    busPhase_cases s
  · rw [h]; exact busPhase_busy hc
  · rw [h]; exact busPhase_idle hc hq
  · rw [h]; exact busPhase_read hc hq hw
  · rw [h]; exact busPhase_full hc hq hw hm
  · rw [h]; exact busPhase_commit hc hq hw hm hv
  · rw [h]; exact busPhase_stage hc hq hw hm hv

theorem behindPairs_devEvent (e : DevEvent) :
    (s.behindPairs earlier).devEvent e = (s.devEvent e).behindPairs earlier := by
  cases e with
  | risingEdge =>
    change (s.behindPairs earlier).irqService.busPhase = s.irqService.busPhase.behindPairs earlier
    rw [behindPairs_irqService, behindPairs_busPhase]
  | irq => rfl

theorem behindPairs_takeTick : (s.behindPairs earlier).takeTick = s.takeTick.behindPairs earlier := by
  simp only [takeTick_eq]
  rfl

theorem behindPairs_devEvents (es : List DevEvent) :
    es.foldl State.devEvent (s.behindPairs earlier) = (es.foldl State.devEvent s).behindPairs earlier :=
  List.foldl_hom (State.behindPairs · earlier) fun t e => behindPairs_devEvent t earlier e

theorem behindPairs_sample (k : Nat) : (s.behindPairs earlier).sample k = (s.sample k).behindPairs earlier := by
  have hevents : s.nextTick.events.foldl State.devEvent (s.behindPairs earlier).expand.takeTick =
      (s.nextTick.events.foldl State.devEvent s.expand.takeTick).behindPairs earlier :=
    (congrArg (List.foldl State.devEvent · _) (behindPairs_takeTick s.expand earlier)).trans
      (behindPairs_devEvents _ earlier _)
  have hpairs : (s.behindPairs earlier).samples ++ [s.pairAt k] = earlier ++ (s.samples ++ [s.pairAt k]) :=
    List.append_assoc ..
  rw [sample_eq, sample_eq s]
  change { s.nextTick.events.foldl State.devEvent (s.behindPairs earlier).expand.takeTick with
    samples := (s.behindPairs earlier).samples ++ [s.pairAt k] } = _
  rw [hevents, hpairs]
  rfl

theorem behindPairs_generateFrom (k n : Nat) :
    (s.behindPairs earlier).generateFrom k n = (s.generateFrom k n).behindPairs earlier := by
  induction n generalizing s k with
  | zero => rfl
  | succ n ih =>
    change ((s.behindPairs earlier).sample k).generateFrom (k + 1) n = _
    rw [behindPairs_sample, ih]
    rfl

end

/-! ### n + k samples -/

theorem generateFrom_add (s : State) (k n m : Nat) :
    s.generateFrom k (n + m) = (s.generateFrom k n).generateFrom (k + n) m := by
  induction n generalizing s k with
  | zero => rw [Nat.zero_add]; rfl
  | succ n ih =>
    have hplace : k + (n + 1) = k + 1 + n := by omega
    rw [Nat.add_right_comm, hplace]
    exact ih (s.sample k) (k + 1)

theorem generateFrom_samples_length (s : State) (k n : Nat) :
    (s.generateFrom k n).samples.length = s.samples.length + n := by
  induction n generalizing s k with
  | zero => rfl
  | succ n ih =>
    have hsample : (s.sample k).samples.length = s.samples.length + 1 := by
      rw [sample_eq, List.length_append, List.length_singleton]
    rw [State.generateFrom, ih, hsample]
    omega

theorem behindPairs_own (s : State) : { s with samples := [] }.behindPairs s.samples = s := by
  rw [State.behindPairs, List.append_nil]

/-- The pairs of a first run, and a second run that starts with none. -/
theorem generate_add {offset n k : Word} (hfit : offset.toNat + n.toNat + k.toNat < 2 ^ 32) (s : State) :
    ∃ t u, exec (.generate offset n) s = .next t ∧ exec (.generate (offset + n) k) t = .next u ∧
      t.samples.length = n.toNat ∧
      exec (.generate offset (n + k)) s = .next { u with samples := t.samples ++ u.samples } := by
  refine ⟨_, _, exec_generate offset n s, exec_generate (offset + n) k _, ?count, ?joined⟩
  case count => rw [generateFrom_samples_length]; exact Nat.zero_add _
  case joined =>
    rw [exec_generate, BitVec.toNat_add_of_lt (by omega), BitVec.toNat_add_of_lt (by omega), generateFrom_add]
    generalize { s with samples := [] }.generateFrom offset.toNat n.toNat = t
    have hsecond := behindPairs_generateFrom { t with samples := [] } t.samples (offset.toNat + n.toNat) k.toNat
    rw [behindPairs_own] at hsecond
    exact congrArg Host.Outcome.next hsecond

/-- Settles O55: one tick is taken and its events are run; a second run only adds its pairs. -/
theorem generateResult : Obligations.GenerateResult :=
  ⟨fun _ _ => rfl, generate_one,
    fun _ => ⟨fun _ _ h => ⟨nextTick_of_scripted h, takeTick_of_scripted h⟩,
      fun h => ⟨nextTick_of_free h, takeTick_of_free h⟩⟩,
    fun _ _ _ s hfit => generate_add hfit s⟩

end Sys2Proof.Machine
end

section
/-! PROOFS. SNAPSHOT: where a byte of a register stands in the buffer; and a raw write, a sample of four edges or more
and a snapshot (45_device_facade.md R307, 95_test_vectors.md S7). -/

namespace Sys2Proof

/-- In blocks of one length joined together, the j-th place of the i-th block. -/
theorem getElem?_flatMap_of_length {α β : Type} {f : α → List β} {n : Nat} (hlen : ∀ x, (f x).length = n)
    {xs : List α} {i j : Nat} {x : α} (hx : xs[i]? = some x) (hj : j < n) :
    (xs.flatMap f)[i * n + j]? = (f x)[j]? := by
  induction xs generalizing i with
  | nil => simp at hx
  | cons y ys ih =>
    rw [List.flatMap_cons]
    cases i with
    | zero =>
      obtain rfl : y = x := by simpa using hx
      rw [List.getElem?_append_left (by rw [hlen]; omega), Nat.zero_mul, Nat.zero_add]
    | succ i =>
      have hplace : (i + 1) * n + j = n + (i * n + j) := by rw [Nat.succ_mul, Nat.add_assoc, Nat.add_left_comm]
      rw [hplace, List.getElem?_append_right (by rw [hlen]; omega), hlen, Nat.add_sub_cancel_left]
      exact ih (by simpa using hx)

theorem wordBytes_getElem? (v : Word) (b : BitVec 2) : (wordBytes v)[b.toNat]? = some (byteOf v b) := by
  obtain rfl | rfl | rfl | rfl : b = 0 ∨ b = 1 ∨ b = 2 ∨ b = 3 := by revert b; decide
  all_goals rfl

theorem byteOf_wordOfBytes_apply (f : BitVec 2 → Byte) (b : BitVec 2) :
    byteOf (wordOfBytes (f 0) (f 1) (f 2) (f 3)) b = f b := by
  obtain ⟨h0, h1, h2, h3⟩ := byteOf_wordOfBytes (f 0) (f 1) (f 2) (f 3)
  obtain rfl | rfl | rfl | rfl : b = 0 ∨ b = 1 ∨ b = 2 ∨ b = 3 := by revert b; decide
  · exact h0
  · exact h1
  · exact h2
  · exact h3

namespace Machine

/-! ### The layout of the buffer -/

/-- The 64 bytes of one page of the snapshot. -/
def State.pageBytes (s : State) (page : Nat) : List Byte :=
  (List.range 16).flatMap fun reg => wordBytes (s.regsRead page reg)

theorem snapshotBytes_eq (s : State) : s.snapshotBytes = (List.range 128).flatMap s.pageBytes := rfl

theorem pageBytes_length (s : State) (page : Nat) : (s.pageBytes page).length = 64 := by
  simp [State.pageBytes, List.length_flatMap]

theorem snapshotBytes_length (s : State) : s.snapshotBytes.length = 8192 := by
  simp [snapshotBytes_eq, List.length_flatMap, pageBytes_length]

theorem snapshotBytes_getElem? (s : State) {page reg : Nat} (hpage : page < 128) (hreg : reg < 16) (b : BitVec 2) :
    s.snapshotBytes[(page * 16 + reg) * 4 + b.toNat]? = some (byteOf (s.regsRead page reg) b) := by
  have hb := b.isLt
  have hplace : (page * 16 + reg) * 4 + b.toNat = page * 64 + (reg * 4 + b.toNat) := by omega
  have hrow : s.snapshotBytes[page * 64 + (reg * 4 + b.toNat)]? = (s.pageBytes page)[reg * 4 + b.toNat]? :=
    getElem?_flatMap_of_length (pageBytes_length s) (List.getElem?_range hpage) (by omega)
  have hword : (s.pageBytes page)[reg * 4 + b.toNat]? = (wordBytes (s.regsRead page reg))[b.toNat]? :=
    getElem?_flatMap_of_length (f := fun reg => wordBytes (s.regsRead page reg)) (fun _ => rfl)
      (List.getElem?_range hreg) hb
  rw [hplace, hrow, hword, wordBytes_getElem?]

/-! ### On the register pool -/

theorem regsRead_of_pool {s : State} (h : s.cfg.device = .pool) (page reg : Nat) :
    s.regsRead page reg = poolReg s.pool page reg := by
  simp [State.regsRead, h]

theorem byteOf_poolReg (m : Memory) (page reg : Nat) (b : BitVec 2) :
    byteOf (poolReg m page reg) b = Memory.read m (page * 64 + reg * 4 + b.toNat) :=
  byteOf_wordOfBytes_apply (fun b => Memory.read m (page * 64 + reg * 4 + b.toNat)) b

/-- On the register pool the snapshot is the pool, byte for byte. -/
theorem snapshotBytes_of_pool {s : State} (h : s.cfg.device = .pool) {k : Nat} (hk : k < 8192) :
    s.snapshotBytes[k]? = some (Memory.read s.pool k) := by
  have hb : (BitVec.ofNat 2 k).toNat = k % 4 := BitVec.toNat_ofNat k 2
  have hbyte := snapshotBytes_getElem? s (page := k / 64) (reg := k / 4 % 16) (by omega) (by omega) (BitVec.ofNat 2 k)
  rw [regsRead_of_pool h, byteOf_poolReg, hb] at hbyte
  rwa [show (k / 64 * 16 + k / 4 % 16) * 4 + k % 4 = k by omega,
    show k / 64 * 64 + k / 4 % 16 * 4 + k % 4 = k by omega] at hbyte

theorem exec_snapshot (s : State) : exec .snapshot s = .next { s with snapshot := s.snapshotBytes } := rfl

/-- Settles O59: the layout for any device, and on the register pool. -/
theorem snapshotLayout : Obligations.SnapshotLayout :=
  fun s => ⟨_, exec_snapshot s, rfl, rfl, snapshotBytes_length s,
    fun _ _ b hpage hreg => snapshotBytes_getElem? s hpage hreg b, fun h _ hk => snapshotBytes_of_pool h hk⟩

/-! ### A raw write, a sample, a snapshot -/

/-- With nothing on its way to the bus and no read just completed, edges only pass. -/
theorem runAll_idleEdges {s : State} (hread : s.wasRead = false) (hcycle : s.cycle = 0) (hpq : s.pq = []) (n : Nat) :
    runAll (List.replicate n .edge) s = .next { s with edgeNo := s.edgeNo + n } := by
  induction n generalizing s with
  | zero => rfl
  | succ n ih =>
    have hedge := exec_edge_of_noRead hread
    rw [busPhase_idle hcycle hpq] at hedge
    have hrest := ih (s := { s with edgeNo := s.edgeNo + 1 }) hread hcycle hpq
    rw [List.replicate_succ, runAll_cons_next hedge, hrest, Nat.add_comm n, ← Nat.add_assoc]

/-- A whole write without delay: four edges put the value into the register, further edges pass idle. -/
theorem wholeWrite_edges {s u : State} {a : BitVec 4} {v : Word} {n : Nat}
    (hrun : runAll (List.replicate n .edge) s = .next u) (hn : 4 ≤ n) (hpool : s.cfg.device = .pool)
    (hwf : Memory.wf s.pool = true) (hcycle : s.cycle = 0) (hvalid : s.holdValid = false) (hread : s.wasRead = false)
    (hpq : s.pq = expandLT ⟨.write v, a, allBits, 0⟩) :
    u.cfg = s.cfg ∧ poolReg u.pool s.devPage.toNat a.toNat = v ∧
      ∀ k, k / 4 ≠ s.devPage.toNat * 16 + a.toNat → Memory.read u.pool k = Memory.read s.pool k := by
  obtain ⟨b0, b1, b2, b3, t, hfour, h, hcycle', -, -, hbytes⟩ :=
    logicalWrite_edges hcycle hvalid hread (hpq.trans (List.append_nil _).symm)
  have hidle := runAll_idleEdges (h.wasRead.trans hread) hcycle' h.pq (n - 4)
  have hsplit : List.replicate n Instr.edge =
      List.replicate (4 + partialBytes allBits) .edge ++ List.replicate (n - 4) .edge := by
    rw [← List.replicate_add, show partialBytes allBits = 0 by decide, Nat.add_zero, Nat.add_sub_cancel' hn]
  rw [hsplit, runAll_append_next hfour, hidle] at hrun
  obtain rfl := Host.Outcome.next.inj hrun
  have hvalue : wordOfBytes b0 b1 b2 b3 = v := by
    have hones : allBits = BitVec.allOnes 32 := by decide
    rw [hbytes hpool hwf, hones, BitVec.and_allOnes, BitVec.not_allOnes, BitVec.and_zero, BitVec.or_zero]
  refine ⟨h.cfg, ?register, fun k hk => ?frame⟩
  case register => rw [← hvalue, ← registerWritten_poolReg hwf, ← h.pool]
  case frame => rw [← registerWritten_frame hwf hk b0 b1 b2 b3, ← h.pool]

/-- One sample on a whole write in LQ, its tick of four edges or more scripted. -/
theorem generate_wholeWrite {s : State} {a : BitVec 4} {v : Word} {n : Nat} {d : DevTick} {rest : List DevTick}
    (hpool : s.cfg.device = .pool) (hwf : Memory.wf s.pool = true) (hlq : s.lq = [⟨.write v, a, allBits, 0⟩])
    (hpq : s.pq = []) (hcycle : s.cycle = 0) (hvalid : s.holdValid = false) (hread : s.wasRead = false)
    (htick : s.tickIn = d :: rest) (hevents : d.events = List.replicate n .risingEdge) (hn : 4 ≤ n) :
    ∃ t, exec (.generate 0 1) s = .next t ∧ t.cfg = s.cfg ∧ poolReg t.pool s.devPage.toNat a.toNat = v ∧
      ∀ k, k / 4 ≠ s.devPage.toNat * 16 + a.toNat → Memory.read t.pool k = Memory.read s.pool k := by
  obtain ⟨u, hrun, hexec⟩ := generate_one 0 s
  have hedges : s.nextTick.events.map eventInstr = List.replicate n .edge := by
    rw [nextTick_of_scripted htick, hevents, List.map_replicate]
    rfl
  have hexpanded : s.pq ++ s.lq.flatMap expandLT = expandLT ⟨.write v, a, allBits, 0⟩ := by
    rw [hpq, hlq, List.nil_append, List.flatMap_singleton]
  rw [hedges, State.tickTaken, takeTick_of_scripted htick] at hrun
  have hwritten := wholeWrite_edges hrun hn hpool hwf hcycle hvalid hread hexpanded
  exact ⟨_, hexec, hwritten⟩

/-- Settles O60: the value is queued, written by the first four edges, and found by the snapshot. -/
theorem rawWriteRoundTrip : Obligations.RawWriteRoundTrip := by
  intro s a v n d rest hpool hwf hdrained hskip hread htick hevents hn
  obtain ⟨hlq, hpq, hcycle, hvalid⟩ := hdrained
  have hqueued : exec (.rawwrite (a.setWidth 32) v) s = .next { s with lq := [⟨.write v, a, allBits, 0⟩] } := by
    rw [exec_rawwrite, withAddress_setWidth, enqw_of_not_skipWrites hskip, hlq]
    rfl
  obtain ⟨t, hsample, hcfg, hregister, hframe⟩ :=
    generate_wholeWrite (s := { s with lq := [⟨.write v, a, allBits, 0⟩] })
      hpool hwf rfl hpq hcycle hvalid hread htick hevents hn
  have hpool' : t.cfg.device = .pool := (congrArg Cfg.device hcfg).trans hpool
  refine ⟨{ t with snapshot := t.snapshotBytes }, ?run, fun b => ?register, fun k hk hother => ?frame⟩
  case run =>
    rw [runAll_cons_next hqueued, runAll_cons_next hsample, runAll_cons_next (exec_snapshot t)]
    rfl
  case register =>
    rw [← hregister, ← regsRead_of_pool hpool']
    exact snapshotBytes_getElem? t s.devPage.isLt a.isLt b
  case frame =>
    rw [← hframe k hother]
    exact snapshotBytes_of_pool hpool' hk

end Machine

end Sys2Proof
end

section
/-! PROOFS. Which operations complete (60_exceptions.md R320 to R322, 45_device_facade.md R306). -/

namespace Sys2Proof.Machine

/-! ### A result that is a next state exactly in range -/

/-- The four reasons for which an operand is refused (60_exceptions.md R321). -/
def OutOfRange (r : Refusal) : Prop :=
  r = .channelOutOfRange ∨ r = .addressOutOfRange ∨ r = .pageOutOfRange ∨ r = .accumulatorOutOfRange

/-- A result that is a next state where the operands are in range, and a refusal of an operand where they are not. -/
inductive CompletesIff (inRange : Prop) : Result State → Prop
  | next {t : State} (hin : inRange) : CompletesIff inRange (.next t)
  | refused {r : Refusal} (hout : ¬ inRange) (hr : OutOfRange r) : CompletesIff inRange (.refused r)

theorem CompletesIff.next_iff {inRange : Prop} {r : Result State} (h : CompletesIff inRange r) :
    (∃ t, r = .next t) ↔ inRange := by
  cases h with
  | next hin => exact ⟨fun _ => hin, fun _ => ⟨_, rfl⟩⟩
  | refused hout hr => exact ⟨fun ⟨_, hnext⟩ => (nomatch hnext), fun hin => absurd hin hout⟩

theorem CompletesIff.outOfRange {inRange : Prop} {r : Result State} (h : CompletesIff inRange r) {why : Refusal}
    (hrefused : r = .refused why) : OutOfRange why := by
  cases h with
  | next hin => cases hrefused
  | refused hout hr => cases hrefused; exact hr

/-! ### Operands, one after the other

Each operand is looked at before the continuation runs: out of it the operands are not in range, and within it the
continuation decides. -/

section

variable {inRange : Prop}

theorem withAddress_completesIff {addr : Word} {k : BitVec 4 → Result State} (hneeds : inRange → addr.toNat ≤ 15)
    (hk : addr.toNat ≤ 15 → CompletesIff inRange (k (addr.setWidth 4))) :
    CompletesIff inRange (withAddress addr k) := by
  by_cases hin : addr.toNat ≤ 15
  case pos =>
    rw [withAddress, if_pos hin]
    exact hk hin
  case neg =>
    rw [withAddress_out (Nat.lt_of_not_le hin)]
    exact .refused (mt hneeds hin) (.inr (.inl rfl))

theorem withPage_completesIff {p : Word} {k : Byte → Result State} (hneeds : inRange → p.toNat ≤ 127)
    (hk : p.toNat ≤ 127 → CompletesIff inRange (k (p.setWidth 8))) :
    CompletesIff inRange (withPage p k) := by
  by_cases hin : p.toNat ≤ 127
  case pos =>
    rw [withPage, if_pos hin]
    exact hk hin
  case neg =>
    rw [withPage_out (Nat.lt_of_not_le hin)]
    exact .refused (mt hneeds hin) (.inr (.inr (.inl rfl)))

theorem withAccumulator_completesIff {s : State} {dest : Word} {k : Nat → Result State}
    (hneeds : inRange → dest.toNat < s.acc.length)
    (hk : dest.toNat < s.acc.length → CompletesIff inRange (k dest.toNat)) :
    CompletesIff inRange (withAccumulator s dest k) := by
  by_cases hin : dest.toNat < s.acc.length
  case pos =>
    rw [withAccumulator_in hin]
    exact hk hin
  case neg =>
    rw [withAccumulator_out (Nat.le_of_not_lt hin)]
    exact .refused (mt hneeds hin) (.inr (.inr (.inr rfl)))

end

theorem AnswersOnChannel.completesIff {ch : Byte} {r : Result State} (h : AnswersOnChannel ch r) :
    CompletesIff (ch.toNat < 32) r := by
  obtain ⟨hrefused, hnext⟩ := h
  by_cases hin : ch.toNat < 32
  case pos =>
    obtain ⟨t, rfl⟩ := hnext (Nat.le_of_lt_succ hin)
    exact .next hin
  case neg =>
    rw [hrefused (Nat.le_of_not_lt hin)]
    exact .refused hin (.inl rfl)

/-! ### MUTE, RAWBATCH, PGWRITEM and DISPATCH -/

theorem mute_completesIff (index : Word) (b : Bool) (s : State) :
    CompletesIff (index.toNat < 32) (exec (.mute index b) s) := by
  by_cases hin : index.toNat < 32
  case pos =>
    have hnext : exec (.mute index b) s = _ := dif_pos hin
    rw [hnext]
    exact .next hin
  case neg =>
    rw [exec_mute_of_not_lt (Nat.le_of_not_lt hin)]
    exact .refused hin (.inl rfl)

/-- A batch is refused whole (45_device_facade.md R306). -/
theorem rawbatch_completesIff (ps : List (Word × Word)) (s : State) :
    CompletesIff (∀ p ∈ ps, p.1.toNat ≤ 15) (exec (.rawbatch ps) s) := by
  by_cases hin : ∀ p ∈ ps, p.1.toNat ≤ 15
  case pos =>
    rw [exec_rawbatch_of_legal hin]
    exact .next hin
  case neg =>
    have hout : ∃ p ∈ ps, 15 < p.1.toNat := by simpa using hin
    rw [exec_rawbatch_of_illegal hout]
    exact .refused hin (.inr (.inl rfl))

theorem pgwritem_completesIff (p : Word) (pm : Byte) (r v m d : Word) (s : State) :
    CompletesIff (p.toNat ≤ 127 ∧ r.toNat ≤ 15) (exec (.pgwritem p pm r v m d) s) := by
  rw [exec_pgwritem]
  exact withPage_completesIff And.left fun hpage => withAddress_completesIff And.right fun haddr =>
    .next ⟨hpage, haddr⟩

/-- A recognised kind needs its channel; any other is NOP_CMD, which examines none (44_command_dispatcher.md R268). -/
theorem dispatch_completesIff (cmd : Cmd) (s : State) :
    CompletesIff (cmd.kind ∈ knownKinds → cmd.channel.toNat < 32) (exec (.dispatch cmd) s) := by
  by_cases hkind : cmd.kind ∈ knownKinds
  case pos =>
    obtain ⟨-, hanswers⟩ := dispatch_of_known hkind s
    simpa only [hkind, true_imp_iff] using hanswers.completesIff
  case neg =>
    have hnop : exec (.dispatch cmd) s = .next (s.setCode 1) := execDispatch_of_unknown hkind s
    rw [hnop]
    exact .next fun h => absurd h hkind

/-! ### Every operation -/

theorem exec_completesIff (i : Instr) (s : State) : CompletesIff (operandsInRange i s) (exec i s) := by
  cases i
  -- a channel
  case mute index b => exact mute_completesIff index b s
  case dispatch cmd => exact dispatch_completesIff cmd s
  case porta ch value value2 => exact (execPorta_answers ch value value2 s).completesIff
  case samplePos ch value => exact (execSamplePos_answers ch value s).completesIff
  case noteOn ch _ | noteOff ch | instrument ch _ | volume ch _ | panning ch _ _ | pitch ch _ | filterMode ch _ |
      filterK1 ch _ | filterK2 ch _ | envCount ch _ | envLvramp ch _ | envRvramp ch _ | envK1ramp ch _ _ |
      envK2ramp ch _ _ => exact (onChannel_answers ch s _).completesIff
  -- an address, a page, an accumulator
  case rawbatch ps => exact rawbatch_completesIff ps s
  case rawwrite =>
    rw [exec_rawwrite]
    exact withAddress_completesIff id fun haddr => .next haddr
  case enqw =>
    rw [exec_enqw]
    exact withAddress_completesIff id fun haddr => .next haddr
  case lread =>
    rw [exec_lread]
    exact withAccumulator_completesIff id fun hdest => .next hdest
  case brd =>
    rw [exec_brd]
    exact withAccumulator_completesIff id fun hdest => .next hdest
  case enqr =>
    rw [exec_enqr]
    exact withAddress_completesIff And.left fun haddr => withAccumulator_completesIff And.right fun hdest =>
      .next ⟨haddr, hdest⟩
  case pagesel =>
    rw [exec_pagesel]
    exact withPage_completesIff id fun hpage => .next hpage
  case pgwritem p pm r v m d => exact pgwritem_completesIff p pm r v m d s
  case pgwrite p r v m d =>
    rw [exec_pgwrite_eq_pgwritem]
    exact pgwritem_completesIff p s.cfg.pmFull r v m d s
  -- no operand that could be out of range
  case reset | generate | tick | setchan | resync | snapshot | effectname | setskip | setlog | nopCmd | lwrite | bwr |
      edge | edgeSvc | edgeBusy | edgeIdle | edgeRd | edgeWfull | edgeWstage | edgeWcommit | tMacro | tVol | tFilt |
      tEnv | tFreq | tKeyon | tKeyoff | tFreqw | expand | irqAssert => exact .next trivial

/-- Settles O7: every operation completes exactly in range, and is else refused for an operand. -/
theorem completesExactlyInRange : Obligations.CompletesExactlyInRange := fun i s =>
  ⟨(exec_completesIff i s).next_iff, fun _ hrefused => (exec_completesIff i s).outOfRange hrefused⟩

end Sys2Proof.Machine
end

section
/-! PROOFS. The interrupt: what IRQ_ASSERT queues, and a second service of the same vector (60_exceptions.md R323,
R327, 41_edge_sequencer.md R151). -/

namespace Sys2Proof.Machine

/-- Settles O30: the latch and one read at the back of LQ are all of IRQ_ASSERT. -/
theorem irqAssertLatches : Obligations.IrqAssertLatches := fun _ => rfl

/-! ### The flip that a service finds due -/

/-- The vector has bit 7 clear and names a channel whose flag is pending (41_edge_sequencer.md R151). -/
def State.flipDue (s : State) : Prop :=
  s.irqVector.getLsbD 7 = false ∧ (s.chan (vectorChannel s.irqVector)).isReverseLoop = true

theorem irqService_of_flipDue {s : State} (hread : s.wasRead = true) (hlatch : s.irqLatched = true)
    (hdue : s.flipDue) :
    s.irqService = { s with wasRead := false, irqLatched := false }.reverseFlip (vectorChannel s.irqVector) :=
  (irqService_latched hread hlatch).trans (if_pos hdue)

theorem irqService_of_not_flipDue {s : State} (hread : s.wasRead = true) (hlatch : s.irqLatched = true)
    (hdue : ¬ s.flipDue) : s.irqService = { s with wasRead := false, irqLatched := false } :=
  (irqService_latched hread hlatch).trans (if_neg hdue)

/-! ### What a flip leaves and what it clears -/

theorem reverseFlip_frame (s : State) (c : ChIx) :
    (s.reverseFlip c).wasRead = s.wasRead ∧ (s.reverseFlip c).irqLatched = s.irqLatched ∧
      (s.reverseFlip c).acc = s.acc ∧ (s.reverseFlip c).irqVector = s.irqVector := by
  obtain ⟨p, ws, hwrite, -, -⟩ :=
    writeCr_queuesOnly s c (revFlip s.cfg (s.chan c).pcm.reversed).1 (revFlip s.cfg (s.chan c).pcm.reversed).2
  rw [State.reverseFlip, hwrite]
  exact ⟨rfl, rfl, rfl, rfl⟩

theorem reverseFlip_isReverseLoop (s : State) (c : ChIx) : ((s.reverseFlip c).chan c).isReverseLoop = false :=
  congrArg Chan.isReverseLoop (chan_setChan_same ..)

/-- The channel that the vector names has no flip pending once it is flipped, and the vector still names it. -/
theorem not_flipDue_reverseFlip (s : State) : ¬ (s.reverseFlip (vectorChannel s.irqVector)).flipDue := by
  rintro ⟨-, hpending⟩
  obtain ⟨-, -, -, hvector⟩ := reverseFlip_frame s (vectorChannel s.irqVector)
  rw [hvector, reverseFlip_isReverseLoop] at hpending
  exact Bool.noConfusion hpending

/-! ### The first service and the second -/

/-- A service under the latch clears both flags, keeps the accumulators and leaves no flip due. -/
theorem irqService_leaves {s : State} (hread : s.wasRead = true) (hlatch : s.irqLatched = true) :
    s.irqService.wasRead = false ∧ s.irqService.irqLatched = false ∧ s.irqService.acc = s.acc ∧
      ¬ s.irqService.flipDue := by
  by_cases hdue : s.flipDue
  case pos =>
    rw [irqService_of_flipDue hread hlatch hdue]
    obtain ⟨hread', hlatch', hacc, -⟩ :=
      reverseFlip_frame { s with wasRead := false, irqLatched := false } (vectorChannel s.irqVector)
    exact ⟨hread', hlatch', hacc, not_flipDue_reverseFlip { s with wasRead := false, irqLatched := false }⟩
  case neg =>
    rw [irqService_of_not_flipDue hread hlatch hdue]
    exact ⟨rfl, rfl, rfl, hdue⟩

theorem flagsCleared_own {t : State} (hread : t.wasRead = false) (hlatch : t.irqLatched = false) :
    { t with wasRead := false, irqLatched := false } = t :=
  congrArg₂ (fun a b => { t with wasRead := a, irqLatched := b }) hread.symm hlatch.symm

/-- With no flip due, a read completed under the latch is served by taking both flags back. -/
theorem irqService_flagsSet {t : State} (hread : t.wasRead = false) (hlatch : t.irqLatched = false)
    (hdue : ¬ t.flipDue) : { t with wasRead := true, irqLatched := true }.irqService = t :=
  calc { t with wasRead := true, irqLatched := true }.irqService
    _ = { t with wasRead := false, irqLatched := false } :=
      irqService_of_not_flipDue (s := { t with wasRead := true, irqLatched := true }) rfl rfl hdue
    _ = t := flagsCleared_own hread hlatch

/-- Settles O31: the first service leaves no flip due, so the second only takes both flags back. -/
theorem secondInterruptEmitsNothing : Obligations.SecondInterruptEmitsNothing := by
  intro s hread hlatch
  obtain ⟨hread', hlatch', hacc, hdue⟩ := irqService_leaves hread hlatch
  refine ⟨s.irqService, exec_edgeSvc s, hread', hlatch', hacc, ?second⟩
  case second => rw [exec_edgeSvc, irqService_flagsSet hread' hlatch' hdue]

end Sys2Proof.Machine
end

section
/-! PROOFS. The start state and RESET (70_reset_and_hazards.md R350, R351). -/

namespace Sys2Proof.Machine

/-- RESET writes the start state over the block: what lies outside the block stays, and the device calls are those
made before followed by those of the start state. -/
theorem exec_reset_of_default {s : State} (hcfg : s.cfg = Cfg.default) (hacc : s.acc.length = 1)
    (hmuted : s.muted = Bank.fill false) (hskip : s.skipWrites = false) (hlog : s.logEnable = false)
    (hempty : s.writeLog = []) (hinit : s.initChanMax = 31) :
    exec .reset s = .next
      { State.reset with
        port := s.port, stores := s.stores, tickIn := s.tickIn, macroIn := s.macroIn, freeCtr := s.freeCtr
        code := s.code, samples := s.samples, snapshot := s.snapshot, effectName := s.effectName
        trace := s.trace ++ State.reset.trace, edgeNo := s.edgeNo, pool := s.pool, devPage := s.devPage } := by
  rw [resetResult s, hcfg, hacc, hmuted, hskip, hlog, hempty, hinit]
  simp only [Bank.get_fill]
  rfl

/-- Settles O14: the state after RESET is the start state but for what lies outside the block. -/
theorem startStateIsReset : Obligations.StartStateIsReset :=
  fun _ hcfg hacc hmuted hskip hlog hempty hinit =>
    ⟨_, exec_reset_of_default hcfg hacc hmuted hskip hlog hempty hinit,
      rfl, rfl, rfl, rfl, rfl, rfl, rfl, rfl, rfl, rfl, rfl, rfl, rfl, rfl, rfl, rfl⟩

end Sys2Proof.Machine
end
